-- ==== Sys2Proof/Word.lean ====
section
/-! DEFINITION. The word types of the r-VEX (spec/00_scope.md rules R7 and R8): bits are numbered from 0 at the
least significant bit, and arithmetic on a word is modulo 2^32. The widths are the parameters `XLEN` and
`SYLLABLE_BITS` of Table 00-A; `delta%` puts the value of a parameter into a type when the type is read, so that proofs
meet a plain number there. -/

namespace Sys2Proof

/-- `XLEN`: the width of a GR and of every ALU and MUL datapath value (00_scope.md Table 00-A). -/
abbrev Config.xlen : Nat := 32

/-- `SYLLABLE_BITS`: the width of a syllable (00_scope.md Table 00-A). -/
abbrev Config.syllableBits : Nat := 32

/-- A GR value and every ALU and MUL datapath value (10_state.md R20). -/
abbrev Word := BitVec (delta% Config.xlen)

/-- One byte of data memory (10_state.md R28). -/
abbrev Byte := BitVec 8

/-- One syllable (30_encoding.md R60). -/
abbrev Syllable := BitVec (delta% Config.syllableBits)

end Sys2Proof
end

