-- ==== Sys2Proof/Config.lean ====
section
/-! DEFINITION. What an implementation fixes (spec/00_scope.md Table 00-A), as far as it is a size or a type, and the
one free value of the model. `XLEN` and `SYLLABLE_BITS` stand in Sys2Proof/Word.lean, the parameters that are values or
functions in Sys2Proof/Machine/Params.lean, `LAYOUT` at the end of Sys2Proof/Decode.lean, `ROP` in
Sys2Proof/Machine/Rop.lean. `IMEM_BUNDLES` and `DMEM_BYTES` are launch parameters and parts of State. -/

namespace Sys2Proof

/-- `NGR`: the number of general registers (00_scope.md Table 00-A). -/
abbrev Config.ngr : Nat := 64

/-- `NBR`: the number of branch registers (00_scope.md Table 00-A). -/
abbrev Config.nbr : Nat := 8

/-- `ISSUE_WIDTH`: syllables per bundle (00_scope.md Table 00-A). -/
abbrev Config.issueWidth : Nat := 4

/-- `IMM9_BITS`: the width of the short immediate (00_scope.md Table 00-A). -/
abbrev Config.imm9Bits : Nat := 9

/-- `OFF12_BITS`: the width of the branch offset (00_scope.md Table 00-A). -/
abbrev Config.off12Bits : Nat := 12

/-- `LATENCY`: the number of bundles before a result is visible, the longest there is. It is 1, so that the next bundle
sees every result (70_reset_and_hazards.md R260); `Params.latency` gives it per operation. It is at least 1, since no
bundle sees its own results (30_encoding.md R82). -/
abbrev Config.latency : Nat := 1

/-- How many bundles of results may be on their way at once. -/
abbrev Config.inFlight : Nat := Config.latency - 1

/-- A value of the pc: a number of `PC_UNIT`s, an integer without bounds (10_state.md R26). -/
abbrev Pc := Int

/-- The short immediate as a field (30_encoding.md R68). -/
abbrev Imm9 := BitVec (delta% Config.imm9Bits)

/-- The branch offset as a field (30_encoding.md R70). -/
abbrev Off12 := BitVec (delta% Config.off12Bits)

/-- Index of a general register (10_state.md R20). -/
abbrev GR := Fin (delta% Config.ngr)

/-- Index of a branch register (10_state.md R24). -/
abbrev BR := Fin (delta% Config.nbr)

/-- One instruction: `ISSUE_WIDTH` syllables, slot 0 first (30_encoding.md R71). -/
abbrev Bundle := Vector Syllable (delta% Config.issueWidth)

/-- The name of an inter-cluster path, an operand of SEND and RECV (30_encoding.md R64). The spec gives it no range:
DESIGN CHOICE, safe, notes/assumptions/14.md. -/
abbrev Path := Nat

/-- `draw_32()`, an arbitrary 32-bit value chosen by the environment and under no law (00_scope.md R9). It has no body
that Lean can evaluate. The first argument counts the bundles that have drawn, the second is the GR the value goes to:
two operations of one bundle cannot write one GR (30_encoding.md R80), so no two draws of a run share their arguments.
DESIGN CHOICE, safe: notes/assumptions/6.md. -/
opaque Config.draw32 : Nat → GR → Word

end Sys2Proof
end

