-- ==== Sys2Proof/Syntax.lean ====
section
/-! DEFINITION. The operations as syntax, at Level A (spec/00_scope.md R5, spec/30_encoding.md R63 and R65): an
operation name, the form of Table 30-A, and the operands the form names. One constructor per row of
spec/opcode_table.json, in the table's order. Forms XIII b (`goto $r0.lr`) and XVI b (`call $l0.t = $l0.t`) are
spellings of IGOTO and ICALL (R78) and are those constructors. -/

namespace Sys2Proof

/-- The second source of types I, II, III and VI: a GR or a bare `s2`, a 32-bit immediate (30_encoding.md R65, R100). -/
inductive Src2 where
  | reg (s2 : GR)
  | imm (v : Word)
  deriving DecidableEq, Repr

/-- The target of type II: `$r0.t =` (forms a and b) or `$b0.b =` (forms c and d) (30_encoding.md R63). -/
inductive Target where
  | gr (t : GR)
  | br (b : BR)
  deriving DecidableEq, Repr

/-- Every row of the opcode table. Operand letters are those of the templates (00_scope.md R11): `t`, `s1`, `s2` GR
indices, `b`, `b1` BR indices, `off` of the control operations the signed displacement in bundles, `off` of the memory
operations the 32-bit byte offset, `frame` RETURN's signed byte count, `n` XNOP's cycle count, which only the branch
form carries (Table 30-C, row XV). The operands of SEND and RECV are those of forms IX a (`$r0.s1, path`) and XVIII a
(`$r0.t = path`): `some (s1, path)` and `some (t, path)`; `none` is what a syllable gives, since no encoding of them
exists and the decoder carries the opcode only (R212, R213, notes/assumptions/14.md). -/
inductive Instr where
  /-- `nop`: type XIV, "No operation" (R211). -/
  | nop
  /-- `mpyll`: type I, "Multiply signed low 16 x low 16 bits" (R151). -/
  | mpyll (t s1 : GR) (src2 : Src2)
  /-- `mpyllu`: type I, "Multiply unsigned low 16 x low 16 bits" (R152). -/
  | mpyllu (t s1 : GR) (src2 : Src2)
  /-- `mpylh`: type I, "Multiply signed low 16 (`s1`) x high 16 (`s2`) bits" (R153). -/
  | mpylh (t s1 : GR) (src2 : Src2)
  /-- `mpylhu`: type I, "Multiply unsigned low 16 (`s1`) x high 16 (`s2`) bits" (R154). -/
  | mpylhu (t s1 : GR) (src2 : Src2)
  /-- `mpyhh`: type I, "Multiply signed high 16 x high 16 bits" (R155). -/
  | mpyhh (t s1 : GR) (src2 : Src2)
  /-- `mpyhhu`: type I, "Multiply unsigned high 16 x high 16 bits" (R156). -/
  | mpyhhu (t s1 : GR) (src2 : Src2)
  /-- `mpyl`: type I, "Multiply signed low 16 (`s2`) x 32 (`s1`) bits" (R157). -/
  | mpyl (t s1 : GR) (src2 : Src2)
  /-- `mpylu`: type I, "Multiply unsigned low 16 (`s2`) x 32 (`s1`) bits" (R158). -/
  | mpylu (t s1 : GR) (src2 : Src2)
  /-- `mpyh`: type I, "Multiply signed high 16 (`s2`) x 32 (`s1`) bits" (R159). -/
  | mpyh (t s1 : GR) (src2 : Src2)
  /-- `mpyhu`: type I, "Multiply unsigned high 16 (`s2`) x 32 (`s1`) bits" (R160). -/
  | mpyhu (t s1 : GR) (src2 : Src2)
  /-- `mpyhs`: type I, "Multiply signed high 16 (`s2`) x 32 (`s1`) bits, shift left 16" (R161). -/
  | mpyhs (t s1 : GR) (src2 : Src2)
  /-- `reserved_0001100`: reserved, "MUL r-OP" (R162). -/
  | reserved0001100
  /-- `reserved_0001101`: reserved, "MUL r-OP" (R162). -/
  | reserved0001101
  /-- `reserved_0001110`: reserved, "MUL r-OP" (R162). -/
  | reserved0001110
  /-- `reserved_0001111`: reserved, "MUL r-OP" (R162). -/
  | reserved0001111
  /-- `reserved_0010000`: reserved, "MEM r-OP" (R199). -/
  | reserved0010000
  /-- `ldw`: type X, "Load word" (R190). -/
  | ldw (t : GR) (off : Word) (s1 : GR)
  /-- `ldh`: type X, "Load halfword signed" (R191). -/
  | ldh (t : GR) (off : Word) (s1 : GR)
  /-- `ldhu`: type X, "Load halfword unsigned" (R192). -/
  | ldhu (t : GR) (off : Word) (s1 : GR)
  /-- `ldb`: type X, "Load byte signed" (R193). -/
  | ldb (t : GR) (off : Word) (s1 : GR)
  /-- `ldbu`: type X, "Load byte unsigned" (R194). -/
  | ldbu (t : GR) (off : Word) (s1 : GR)
  /-- `stw`: type XI, "Store word" (R195). -/
  | stw (off : Word) (s1 s2 : GR)
  /-- `sth`: type XI, "Store halfword" (R196). -/
  | sth (off : Word) (s1 s2 : GR)
  /-- `stb`: type XI, "Store byte" (R197). -/
  | stb (off : Word) (s1 s2 : GR)
  /-- `pft`: type XII, "Prefetch" (R198). -/
  | pft (off : Word) (s1 : GR)
  /-- `reserved_0011010`: reserved, "MEM r-OP" (R199). -/
  | reserved0011010
  /-- `reserved_0011011`: reserved, "MEM r-OP" (R199). -/
  | reserved0011011
  /-- `SYL_FOLLOW`: "Syllable contains second half of long immediate" (R214). -/
  | sylFollow (payload : BitVec 23)
  /-- `reserved_0011101`: reserved, "MEM r-OP" (R199). -/
  | reserved0011101
  /-- `reserved_0011110`: reserved, "MEM r-OP" (R199). -/
  | reserved0011110
  /-- `stop`: type XIV, "STOP operation" (R210). -/
  | stop
  /-- `reserved_0100000`: reserved, "CTRL r-OP" (R180). -/
  | reserved0100000
  /-- `goto`: type XIII, "Unconditional relative jump" (R171). -/
  | goto (off : Int)
  /-- `igoto`: type XIX, "Unconditional absolute indirect jump to link register" (R172). -/
  | igoto
  /-- `call`: type XVI, "Unconditional relative call" (R173). -/
  | call (off : Int)
  /-- `icall`: type XX, "Unconditional absolute indirect call to link register" (R174). -/
  | icall
  /-- `br`: type VIII, "Conditional relative branch on true condition" (R175). -/
  | br (b : BR) (off : Int)
  /-- `brf`: type VIII, "Conditional relative branch on false condition" (R176). -/
  | brf (b : BR) (off : Int)
  /-- `return`: type XVII, "Pop stack frame and goto link register" (R177). -/
  | ret (t : GR) (frame : Int)
  /-- `rfi`: type XIV, "Return from interrupt" (R178). -/
  | rfi
  /-- `xnop`: type XV, "Multicycle NOP" (R179). -/
  | xnop (n : Option Nat)
  /-- `send`: type IX, "Send `s1` to the path identified by `path`" (R212): `some (s1, path)`, or
  `none`, the default, for the form read from a syllable, which carries neither (30_encoding.md Table 30-C, row IX). -/
  | send (operands : Option (GR × Path) := none)
  /-- `recv`: type XVIII, "Assigns the value from the path identified by `path` to `t`" (R213): `some (t, path)`, or
  `none`, the default, for the form read from a syllable, which carries neither (30_encoding.md Table 30-C, row XVIII). -/
  | recv (operands : Option (GR × Path) := none)
  /-- `reserved_0101100`: reserved, "CTRL r-OP" (R180). -/
  | reserved0101100
  /-- `reserved_0101101`: reserved, "CTRL r-OP" (R180). -/
  | reserved0101101
  /-- `reserved_0101110`: reserved, "CTRL r-OP" (R180). -/
  | reserved0101110
  /-- `reserved_0101111`: reserved, "CTRL r-OP" (R180). -/
  | reserved0101111
  /-- `slctf`: type III, "Select `s1` on false condition. (exceptional opcode)" (R144). -/
  | slctf (t : GR) (b1 : BR) (s1 : GR) (src2 : Src2)
  /-- `slct`: type III, "Select `s1` on true condition. (exceptional opcode)" (R143). -/
  | slct (t : GR) (b1 : BR) (s1 : GR) (src2 : Src2)
  /-- `reserved_1000000`: reserved, "ALU r-OP" (R145). -/
  | reserved1000000
  /-- `add`: type I, "Add" (R102). -/
  | add (t s1 : GR) (src2 : Src2)
  /-- `reserved_1000010`: reserved, "ALU r-OP" (R145). -/
  | reserved1000010
  /-- `and`: type I, "Bitwise AND" (R103). -/
  | and (t s1 : GR) (src2 : Src2)
  /-- `andc`: type I, "Bitwise complement and AND" (R104). -/
  | andc (t s1 : GR) (src2 : Src2)
  /-- `max`: type I, "Maximum signed" (R105). -/
  | max (t s1 : GR) (src2 : Src2)
  /-- `maxu`: type I, "Maximum unsigned" (R106). -/
  | maxu (t s1 : GR) (src2 : Src2)
  /-- `min`: type I, "Minimum signed" (R107). -/
  | min (t s1 : GR) (src2 : Src2)
  /-- `minu`: type I, "Minimum unsigned" (R108). -/
  | minu (t s1 : GR) (src2 : Src2)
  /-- `or`: type I, "Bitwise OR" (R109). -/
  | or (t s1 : GR) (src2 : Src2)
  /-- `orc`: type I, "Bitwise complement and OR" (R110). -/
  | orc (t s1 : GR) (src2 : Src2)
  /-- `sh1add`: type I, "Shift left 1 and add" (R111). -/
  | sh1add (t s1 : GR) (src2 : Src2)
  /-- `sh2add`: type I, "Shift left 2 and add" (R112). -/
  | sh2add (t s1 : GR) (src2 : Src2)
  /-- `sh3add`: type I, "Shift left 3 and add" (R113). -/
  | sh3add (t s1 : GR) (src2 : Src2)
  /-- `sh4add`: type I, "Shift left 4 and add" (R114). -/
  | sh4add (t s1 : GR) (src2 : Src2)
  /-- `shl`: type I, "Shift left" (R115). -/
  | shl (t s1 : GR) (src2 : Src2)
  /-- `shr`: type I, "Shift right signed" (R116). -/
  | shr (t s1 : GR) (src2 : Src2)
  /-- `shru`: type I, "Shift right unsigned" (R117). -/
  | shru (t s1 : GR) (src2 : Src2)
  /-- `sub`: type VI, "Subtract" (R118). -/
  | sub (t : GR) (src2 : Src2) (s1 : GR)
  /-- `sxtb`: type VII, "Sign extend byte" (R119). -/
  | sxtb (t s1 : GR)
  /-- `sxth`: type VII, "Sign extend half word" (R120). -/
  | sxth (t s1 : GR)
  /-- `zxtb`: type VII, "Zero extend byte" (R121). -/
  | zxtb (t s1 : GR)
  /-- `zxth`: type VII, "Zero extend half word" (R122). -/
  | zxth (t s1 : GR)
  /-- `xor`: type I, "Bitwise XOR" (R123). -/
  | xor (t s1 : GR) (src2 : Src2)
  /-- `mov`: type VII, "Copy `s1` to other location" (R124). -/
  | mov (t s1 : GR)
  /-- `cmpeq`: type II, "Compare: equal" (R126). -/
  | cmpeq (d : Target) (s1 : GR) (src2 : Src2)
  /-- `cmpge`: type II, "Compare: greater equal signed" (R127). -/
  | cmpge (d : Target) (s1 : GR) (src2 : Src2)
  /-- `cmpgeu`: type II, "Compare: greater equal unsigned" (R128). -/
  | cmpgeu (d : Target) (s1 : GR) (src2 : Src2)
  /-- `cmpgt`: type II, "Compare: greater signed" (R129). -/
  | cmpgt (d : Target) (s1 : GR) (src2 : Src2)
  /-- `cmpgtu`: type II, "Compare: greater unsigned" (R130). -/
  | cmpgtu (d : Target) (s1 : GR) (src2 : Src2)
  /-- `cmple`: type II, "Compare: less than equal signed" (R131). -/
  | cmple (d : Target) (s1 : GR) (src2 : Src2)
  /-- `cmpleu`: type II, "Compare: less than equal unsigned" (R132). -/
  | cmpleu (d : Target) (s1 : GR) (src2 : Src2)
  /-- `cmplt`: type II, "Compare: less than signed" (R133). -/
  | cmplt (d : Target) (s1 : GR) (src2 : Src2)
  /-- `cmpltu`: type II, "Compare: less than unsigned" (R134). -/
  | cmpltu (d : Target) (s1 : GR) (src2 : Src2)
  /-- `cmpne`: type II, "Compare: not equal" (R135). -/
  | cmpne (d : Target) (s1 : GR) (src2 : Src2)
  /-- `nandl`: type II, "Logical NAND" (R136). -/
  | nandl (d : Target) (s1 : GR) (src2 : Src2)
  /-- `norl`: type II, "Logical NOR" (R137). -/
  | norl (d : Target) (s1 : GR) (src2 : Src2)
  /-- `reserved_1100101`: reserved, "ALU r-OP" (R145). -/
  | reserved1100101
  /-- `orl`: type II, "Logical OR" (R138). -/
  | orl (d : Target) (s1 : GR) (src2 : Src2)
  /-- `mtb`: type V, "Move GR to BR" (R140). -/
  | mtb (b : BR) (s1 : GR)
  /-- `andl`: type II, "Logical AND" (R139). -/
  | andl (d : Target) (s1 : GR) (src2 : Src2)
  /-- `reserved_1101001`: reserved, "ALU r-OP" (R145). -/
  | reserved1101001
  /-- `reserved_1101010`: reserved, "ALU r-OP" (R145). -/
  | reserved1101010
  /-- `reserved_1101011`: reserved, "ALU r-OP" (R145). -/
  | reserved1101011
  /-- `reserved_1101100`: reserved, "ALU r-OP" (R145). -/
  | reserved1101100
  /-- `reserved_1101101`: reserved, "ALU r-OP" (R145). -/
  | reserved1101101
  /-- `reserved_1101110`: reserved, "ALU r-OP" (R145). -/
  | reserved1101110
  /-- `reserved_1101111`: reserved, "ALU r-OP" (R145). -/
  | reserved1101111
  /-- `divs`: type IV, "Division step with carry and generate carry" (R142). -/
  | divs (t : GR) (b b1 : BR) (s1 s2 : GR)
  /-- `addcg`: type IV, "Add with carry and generate carry" (R141). -/
  | addcg (t : GR) (b b1 : BR) (s1 s2 : GR)
  deriving DecidableEq, Repr

end Sys2Proof
end

