-- ==== Sys2Proof/WellFormed.lean ====
section
/-! DEFINITION. Which Level A operations Level B can carry (spec/30_encoding.md R65, R67; U21 and U24 of
spec/93_implementation_defined.md): a well-formed operation is one that `LAYOUT` has an encoding for. Register indices
and 32-bit immediates always fit (their types say so). Operands of SEND and RECV have no encoding (R212, R213). An operation that is not well formed still has its Level A
meaning. -/

namespace Sys2Proof

/-- A displacement or frame size fits `off12`, a signed field of `OFF12_BITS` (30_encoding.md R70). -/
def fitsOff12 (off : Int) : Bool :=
  decide (-2 ^ ((delta% Config.off12Bits) - 1) ≤ off ∧ off < 2 ^ ((delta% Config.off12Bits) - 1))

/-- XNOP's cycle count is not carried, or fits `off12` unsigned (30_encoding.md R70). -/
def fitsCycles : Option Nat → Bool
  | none => true
  | some n => decide (n < 2 ^ (delta% Config.off12Bits))

/-- Type II at Level B: the register form has a GR target other than `$r0.0` or a BR target, the immediate forms have
a GR target only, so form d has no encoding (30_encoding.md R67). -/
def Target.encodableWith : Target → Src2 → Bool
  | .gr t, .reg _ => t != 0
  | .gr _, .imm _ => true
  | .br _, .reg _ => true
  | .br _, .imm _ => false

/-- The operation has a Level B encoding. -/
def Instr.wellFormed : Instr → Bool
  | .nop => true
  | .mpyll _ _ _ => true
  | .mpyllu _ _ _ => true
  | .mpylh _ _ _ => true
  | .mpylhu _ _ _ => true
  | .mpyhh _ _ _ => true
  | .mpyhhu _ _ _ => true
  | .mpyl _ _ _ => true
  | .mpylu _ _ _ => true
  | .mpyh _ _ _ => true
  | .mpyhu _ _ _ => true
  | .mpyhs _ _ _ => true
  | .reserved0001100 => true
  | .reserved0001101 => true
  | .reserved0001110 => true
  | .reserved0001111 => true
  | .reserved0010000 => true
  | .ldw _ _ _ => true
  | .ldh _ _ _ => true
  | .ldhu _ _ _ => true
  | .ldb _ _ _ => true
  | .ldbu _ _ _ => true
  | .stw _ _ _ => true
  | .sth _ _ _ => true
  | .stb _ _ _ => true
  | .pft _ _ => true
  | .reserved0011010 => true
  | .reserved0011011 => true
  | .sylFollow _ => true
  | .reserved0011101 => true
  | .reserved0011110 => true
  | .stop => true
  | .reserved0100000 => true
  | .goto off => fitsOff12 off
  | .igoto => true
  | .call off => fitsOff12 off
  | .icall => true
  | .br _ off => fitsOff12 off
  | .brf _ off => fitsOff12 off
  | .ret _ frame => fitsOff12 frame
  | .rfi => true
  | .xnop n => fitsCycles n
  | .send operands => operands.isNone
  | .recv operands => operands.isNone
  | .reserved0101100 => true
  | .reserved0101101 => true
  | .reserved0101110 => true
  | .reserved0101111 => true
  | .slctf _ _ _ _ => true
  | .slct _ _ _ _ => true
  | .reserved1000000 => true
  | .add _ _ _ => true
  | .reserved1000010 => true
  | .and _ _ _ => true
  | .andc _ _ _ => true
  | .max _ _ _ => true
  | .maxu _ _ _ => true
  | .min _ _ _ => true
  | .minu _ _ _ => true
  | .or _ _ _ => true
  | .orc _ _ _ => true
  | .sh1add _ _ _ => true
  | .sh2add _ _ _ => true
  | .sh3add _ _ _ => true
  | .sh4add _ _ _ => true
  | .shl _ _ _ => true
  | .shr _ _ _ => true
  | .shru _ _ _ => true
  | .sub _ _ _ => true
  | .sxtb _ _ => true
  | .sxth _ _ => true
  | .zxtb _ _ => true
  | .zxth _ _ => true
  | .xor _ _ _ => true
  | .mov _ _ => true
  | .cmpeq d _ src2 => d.encodableWith src2
  | .cmpge d _ src2 => d.encodableWith src2
  | .cmpgeu d _ src2 => d.encodableWith src2
  | .cmpgt d _ src2 => d.encodableWith src2
  | .cmpgtu d _ src2 => d.encodableWith src2
  | .cmple d _ src2 => d.encodableWith src2
  | .cmpleu d _ src2 => d.encodableWith src2
  | .cmplt d _ src2 => d.encodableWith src2
  | .cmpltu d _ src2 => d.encodableWith src2
  | .cmpne d _ src2 => d.encodableWith src2
  | .nandl d _ src2 => d.encodableWith src2
  | .norl d _ src2 => d.encodableWith src2
  | .reserved1100101 => true
  | .orl d _ src2 => d.encodableWith src2
  | .mtb _ _ => true
  | .andl d _ src2 => d.encodableWith src2
  | .reserved1101001 => true
  | .reserved1101010 => true
  | .reserved1101011 => true
  | .reserved1101100 => true
  | .reserved1101101 => true
  | .reserved1101110 => true
  | .reserved1101111 => true
  | .divs _ _ _ _ _ => true
  | .addcg _ _ _ _ _ => true

end Sys2Proof
end

