-- ==== Sys2Proof/Decode.lean ====
section
/-! DEFINITION. Level B, the parameter `LAYOUT` (spec/30_encoding.md sections 1 to 6): the fields of a syllable (Table
30-B), decoding of one operation (R73, Table 30-C, Table 30-D), and after it the encoder, which writes the fields a form
does not use as zero (R76). The decoder is total and rejects by name. -/

namespace Sys2Proof

/-! ### The fields of a syllable (Table 30-B) -/

/-- w[31:25]. -/
def Syllable.opcode (w : Syllable) : BitVec 7 := w.extractLsb' 25 7
/-- w[31:28], which alone selects SLCTF, SLCT, DIVS and ADDCG (R66). -/
def Syllable.exceptional (w : Syllable) : BitVec 4 := w.extractLsb' 28 4
/-- w[27:25], the source BR of those four operations (R66). -/
def Syllable.b1 (w : Syllable) : BitVec 3 := w.extractLsb' 25 3
/-- w[24:23] (R62). -/
def Syllable.immSw (w : Syllable) : BitVec 2 := w.extractLsb' 23 2
/-- w[22:17]. -/
def Syllable.dst (w : Syllable) : BitVec 6 := w.extractLsb' 17 6
/-- w[16:11]. -/
def Syllable.src1 (w : Syllable) : BitVec 6 := w.extractLsb' 11 6
/-- w[10:5]. -/
def Syllable.src2 (w : Syllable) : BitVec 6 := w.extractLsb' 5 6
/-- w[4:2], `bdst` and `bsrc`. -/
def Syllable.bdst (w : Syllable) : BitVec 3 := w.extractLsb' 2 3
/-- w[10:2]. -/
def Syllable.imm9 (w : Syllable) : Imm9 := w.extractLsb' 2 _
/-- w[16:5]. -/
def Syllable.off12 (w : Syllable) : Off12 := w.extractLsb' 5 _
/-- w[24:2] of a SYL_FOLLOW syllable. -/
def Syllable.payload (w : Syllable) : BitVec 23 := w.extractLsb' 2 23

/-- A 6-bit register field as a GR index. -/
def grOf (f : BitVec 6) : GR := f.toFin
/-- A 3-bit register field as a BR index. -/
def brOf (f : BitVec 3) : BR := f.toFin
/-- A GR index as its 6-bit field. -/
def GR.toBits (i : GR) : BitVec 6 := BitVec.ofFin i
/-- A BR index as its 3-bit field. -/
def BR.toBits (i : BR) : BitVec 3 := BitVec.ofFin i

/-- The four values of the immediate switch (R62). -/
inductive ImmSw where
  /-- `00`: no immediate. -/
  | register
  /-- `01`: short immediate of 9 bits. -/
  | short
  /-- `10`: branch offset immediate of 12 bits. -/
  | branch
  /-- `11`: long immediate of 32 bits, continued in the next syllable. -/
  | long
  deriving DecidableEq, Repr

/-- The immediate switch of a syllable (R62). -/
def Syllable.switch (w : Syllable) : ImmSw :=
  if w.immSw = 0b00#2 then .register
  else if w.immSw = 0b01#2 then .short
  else if w.immSw = 0b10#2 then .branch
  else .long

/-! ### Decoding one operation (R73) -/

/-- Why a syllable is no operation. The slot, the opcode and the switch of the fault are added where the slot is
known (60_exceptions.md R225, R227). -/
inductive Reject where
  /-- The switch is not admitted for the opcode's type: `BadForm` (R67). -/
  | badForm
  /-- A long immediate without its second syllable: `BadLongImm` (R69). -/
  | badLongImm
  /-- An opcode that Table 30-D does not list. All 128 are listed (R74), so nothing is rejected so
  (notes/assumptions/18.md). -/
  | noOpcode
  deriving DecidableEq, Repr

/-- A decoded operation and whether it consumed the next syllable (R69). -/
abbrev Decoded := Except Reject (Instr × Bool)

/-- An operation that takes no second syllable. -/
def plain (i : Instr) : Decoded := .ok (i, false)

/-- The short immediate, sign-extended from 9 bits (R68). -/
def Syllable.shortImm (w : Syllable) : Word := w.imm9.signExtend _

/-- The long immediate: the payload of the next syllable above this one's `imm9` (R69). `rest` holds the syllables
after this one in the bundle. -/
def Syllable.longImm (w : Syllable) (rest : List Syllable) : Except Reject Word :=
  match rest with
  | [] => .error .badLongImm
  | f :: _ => if f.opcode = 0b0011100#7 then .ok (f.payload ++ w.imm9) else .error .badLongImm

/-- The displacement, frame size or cycle count of the branch form (R70). -/
def Syllable.offset (w : Syllable) : Int := w.off12.toInt

/-- `n` of XNOP: `off12` zero-extended when `imm_sw` = 10, else not carried (Table 30-C, row XV). -/
def Syllable.cycles (w : Syllable) : Option Nat :=
  match w.switch with
  | .branch => some w.off12.toNat
  | .register => none
  | .short => none
  | .long => none

/-- The immediate of a short or long form; the register and branch forms are not admitted (Table 30-C, rows X to
XII). -/
def immOperand (w : Syllable) (rest : List Syllable) (k : Word → Instr) : Decoded :=
  match w.switch with
  | .register => .error .badForm
  | .short => .ok (k w.shortImm, false)
  | .branch => .error .badForm
  | .long =>
    match w.longImm rest with
    | .error e => .error e
    | .ok v => .ok (k v, true)

/-- The second source: a register, a short or a long immediate (Table 30-C, rows I, III and VI). -/
def src2Operand (w : Syllable) (rest : List Syllable) (k : Src2 → Instr) : Decoded :=
  match w.switch with
  | .register => plain (k (.reg (grOf w.src2)))
  | .short => immOperand w rest (fun v => k (.imm v))
  | .branch => .error .badForm
  | .long => immOperand w rest (fun v => k (.imm v))

/-- A form that is only admitted with `imm_sw` = 00 (Table 30-C, rows IV, V and VII). -/
def registerOnly (w : Syllable) (i : Instr) : Decoded :=
  match w.switch with
  | .register => plain i
  | .short => .error .badForm
  | .branch => .error .badForm
  | .long => .error .badForm

/-- A form that is only admitted with `imm_sw` = 10 (Table 30-C, rows VIII, XIII, XVI and XVII). -/
def branchOnly (w : Syllable) (i : Instr) : Decoded :=
  match w.switch with
  | .register => .error .badForm
  | .short => .error .badForm
  | .branch => plain i
  | .long => .error .badForm

/-- Table 30-C, rows I. -/
def typeI (w : Syllable) (rest : List Syllable) (mk : GR → GR → Src2 → Instr) : Decoded :=
  src2Operand w rest (mk (grOf w.dst) (grOf w.src1))

/-- The target of type II in the register form: `dst` = 0 selects the BR target `bdst` (R67). -/
def Syllable.truthTarget (w : Syllable) : Target :=
  if w.dst = 0 then .br (brOf w.bdst) else .gr (grOf w.dst)

/-- Table 30-C, rows II: in the immediate forms the target is always the GR `dst` (R67). -/
def typeII (w : Syllable) (rest : List Syllable) (mk : Target → GR → Src2 → Instr) : Decoded :=
  match w.switch with
  | .register => plain (mk w.truthTarget (grOf w.src1) (.reg (grOf w.src2)))
  | .short => immOperand w rest (fun v => mk (.gr (grOf w.dst)) (grOf w.src1) (.imm v))
  | .branch => .error .badForm
  | .long => immOperand w rest (fun v => mk (.gr (grOf w.dst)) (grOf w.src1) (.imm v))

/-- Table 30-C, rows III. -/
def typeIII (w : Syllable) (rest : List Syllable) (mk : GR → BR → GR → Src2 → Instr) : Decoded :=
  src2Operand w rest (mk (grOf w.dst) (brOf w.b1) (grOf w.src1))

/-- Table 30-C, row IV. -/
def typeIV (w : Syllable) (mk : GR → BR → BR → GR → GR → Instr) : Decoded :=
  registerOnly w (mk (grOf w.dst) (brOf w.bdst) (brOf w.b1) (grOf w.src1) (grOf w.src2))

/-- Table 30-C, row V. -/
def typeV (w : Syllable) (mk : BR → GR → Instr) : Decoded :=
  registerOnly w (mk (brOf w.bdst) (grOf w.src1))

/-- Table 30-C, rows VI: the first written operand is `src2` or the immediate (40_alu.md R118). -/
def typeVI (w : Syllable) (rest : List Syllable) (mk : GR → Src2 → GR → Instr) : Decoded :=
  src2Operand w rest (fun a => mk (grOf w.dst) a (grOf w.src1))

/-- Table 30-C, row VII. -/
def typeVII (w : Syllable) (mk : GR → GR → Instr) : Decoded :=
  registerOnly w (mk (grOf w.dst) (grOf w.src1))

/-- Table 30-C, row VIII: `b` is `bsrc`. -/
def typeVIII (w : Syllable) (mk : BR → Int → Instr) : Decoded :=
  branchOnly w (mk (brOf w.bdst) w.offset)

/-- Table 30-C, row X. -/
def typeX (w : Syllable) (rest : List Syllable) (mk : GR → Word → GR → Instr) : Decoded :=
  immOperand w rest (fun off => mk (grOf w.dst) off (grOf w.src1))

/-- Table 30-C, row XI: the data register `s2` is carried in `dst` (R83). -/
def typeXI (w : Syllable) (rest : List Syllable) (mk : Word → GR → GR → Instr) : Decoded :=
  immOperand w rest (fun off => mk off (grOf w.src1) (grOf w.dst))

/-- Table 30-C, row XII. -/
def typeXII (w : Syllable) (rest : List Syllable) (mk : Word → GR → Instr) : Decoded :=
  immOperand w rest (fun off => mk off (grOf w.src1))

/-- Table 30-C, rows XIII and XVI. -/
def typeXIII (w : Syllable) (mk : Int → Instr) : Decoded := branchOnly w (mk w.offset)

/-- Table 30-C, row XVII. -/
def typeXVII (w : Syllable) (mk : GR → Int → Instr) : Decoded := branchOnly w (mk (grOf w.dst) w.offset)

/-- Table 30-D below the exceptional opcodes. The 24 reserved codes and SYL_FOLLOW give their own constructors; the
bundle's decoder raises `IllegalOpcode` and `OrphanFollow` for them, where the slot is known (R73, R75). -/
def decodeOpcode (w : Syllable) (rest : List Syllable) : Decoded :=
  match w.opcode.toNat with
  | 0b0000000 => plain .nop
  | 0b0000001 => typeI w rest .mpyll
  | 0b0000010 => typeI w rest .mpyllu
  | 0b0000011 => typeI w rest .mpylh
  | 0b0000100 => typeI w rest .mpylhu
  | 0b0000101 => typeI w rest .mpyhh
  | 0b0000110 => typeI w rest .mpyhhu
  | 0b0000111 => typeI w rest .mpyl
  | 0b0001000 => typeI w rest .mpylu
  | 0b0001001 => typeI w rest .mpyh
  | 0b0001010 => typeI w rest .mpyhu
  | 0b0001011 => typeI w rest .mpyhs
  | 0b0001100 => plain .reserved0001100
  | 0b0001101 => plain .reserved0001101
  | 0b0001110 => plain .reserved0001110
  | 0b0001111 => plain .reserved0001111
  | 0b0010000 => plain .reserved0010000
  | 0b0010001 => typeX w rest .ldw
  | 0b0010010 => typeX w rest .ldh
  | 0b0010011 => typeX w rest .ldhu
  | 0b0010100 => typeX w rest .ldb
  | 0b0010101 => typeX w rest .ldbu
  | 0b0010110 => typeXI w rest .stw
  | 0b0010111 => typeXI w rest .sth
  | 0b0011000 => typeXI w rest .stb
  | 0b0011001 => typeXII w rest .pft
  | 0b0011010 => plain .reserved0011010
  | 0b0011011 => plain .reserved0011011
  | 0b0011100 => plain (.sylFollow w.payload)
  | 0b0011101 => plain .reserved0011101
  | 0b0011110 => plain .reserved0011110
  | 0b0011111 => plain .stop
  | 0b0100000 => plain .reserved0100000
  | 0b0100001 => typeXIII w .goto
  | 0b0100010 => plain .igoto
  | 0b0100011 => typeXIII w .call
  | 0b0100100 => plain .icall
  | 0b0100101 => typeVIII w .br
  | 0b0100110 => typeVIII w .brf
  | 0b0100111 => typeXVII w .ret
  | 0b0101000 => plain .rfi
  | 0b0101001 => plain (.xnop (w.cycles))
  | 0b0101010 => plain (.send none)
  | 0b0101011 => plain (.recv none)
  | 0b0101100 => plain .reserved0101100
  | 0b0101101 => plain .reserved0101101
  | 0b0101110 => plain .reserved0101110
  | 0b0101111 => plain .reserved0101111
  | 0b1000000 => plain .reserved1000000
  | 0b1000001 => typeI w rest .add
  | 0b1000010 => plain .reserved1000010
  | 0b1000011 => typeI w rest .and
  | 0b1000100 => typeI w rest .andc
  | 0b1000101 => typeI w rest .max
  | 0b1000110 => typeI w rest .maxu
  | 0b1000111 => typeI w rest .min
  | 0b1001000 => typeI w rest .minu
  | 0b1001001 => typeI w rest .or
  | 0b1001010 => typeI w rest .orc
  | 0b1001011 => typeI w rest .sh1add
  | 0b1001100 => typeI w rest .sh2add
  | 0b1001101 => typeI w rest .sh3add
  | 0b1001110 => typeI w rest .sh4add
  | 0b1001111 => typeI w rest .shl
  | 0b1010000 => typeI w rest .shr
  | 0b1010001 => typeI w rest .shru
  | 0b1010010 => typeVI w rest .sub
  | 0b1010011 => typeVII w .sxtb
  | 0b1010100 => typeVII w .sxth
  | 0b1010101 => typeVII w .zxtb
  | 0b1010110 => typeVII w .zxth
  | 0b1010111 => typeI w rest .xor
  | 0b1011000 => typeVII w .mov
  | 0b1011001 => typeII w rest .cmpeq
  | 0b1011010 => typeII w rest .cmpge
  | 0b1011011 => typeII w rest .cmpgeu
  | 0b1011100 => typeII w rest .cmpgt
  | 0b1011101 => typeII w rest .cmpgtu
  | 0b1011110 => typeII w rest .cmple
  | 0b1011111 => typeII w rest .cmpleu
  | 0b1100000 => typeII w rest .cmplt
  | 0b1100001 => typeII w rest .cmpltu
  | 0b1100010 => typeII w rest .cmpne
  | 0b1100011 => typeII w rest .nandl
  | 0b1100100 => typeII w rest .norl
  | 0b1100101 => plain .reserved1100101
  | 0b1100110 => typeII w rest .orl
  | 0b1100111 => typeV w .mtb
  | 0b1101000 => typeII w rest .andl
  | 0b1101001 => plain .reserved1101001
  | 0b1101010 => plain .reserved1101010
  | 0b1101011 => plain .reserved1101011
  | 0b1101100 => plain .reserved1101100
  | 0b1101101 => plain .reserved1101101
  | 0b1101110 => plain .reserved1101110
  | 0b1101111 => plain .reserved1101111
  | _ => .error .noOpcode

/-- Decoding of one operation from its syllable and the syllables after it in the bundle (R73, steps 2 to 5). -/
def decodeSyllable (w : Syllable) (rest : List Syllable) : Decoded :=
  if w.exceptional = 0b0110#4 then typeIII w rest .slctf
  else if w.exceptional = 0b0111#4 then typeIII w rest .slct
  else if w.exceptional = 0b1110#4 then typeIV w .divs
  else if w.exceptional = 0b1111#4 then typeIV w .addcg
  else decodeOpcode w rest

/-! ### The encoder -/

/-- The 7-bit opcode of an operation (Table 30-D); the exceptional opcodes carry `b1` in their low three bits (R66). -/
def Instr.opcode : Instr → BitVec 7
  | .nop => 0b0000000#7
  | .mpyll _ _ _ => 0b0000001#7
  | .mpyllu _ _ _ => 0b0000010#7
  | .mpylh _ _ _ => 0b0000011#7
  | .mpylhu _ _ _ => 0b0000100#7
  | .mpyhh _ _ _ => 0b0000101#7
  | .mpyhhu _ _ _ => 0b0000110#7
  | .mpyl _ _ _ => 0b0000111#7
  | .mpylu _ _ _ => 0b0001000#7
  | .mpyh _ _ _ => 0b0001001#7
  | .mpyhu _ _ _ => 0b0001010#7
  | .mpyhs _ _ _ => 0b0001011#7
  | .reserved0001100 => 0b0001100#7
  | .reserved0001101 => 0b0001101#7
  | .reserved0001110 => 0b0001110#7
  | .reserved0001111 => 0b0001111#7
  | .reserved0010000 => 0b0010000#7
  | .ldw _ _ _ => 0b0010001#7
  | .ldh _ _ _ => 0b0010010#7
  | .ldhu _ _ _ => 0b0010011#7
  | .ldb _ _ _ => 0b0010100#7
  | .ldbu _ _ _ => 0b0010101#7
  | .stw _ _ _ => 0b0010110#7
  | .sth _ _ _ => 0b0010111#7
  | .stb _ _ _ => 0b0011000#7
  | .pft _ _ => 0b0011001#7
  | .reserved0011010 => 0b0011010#7
  | .reserved0011011 => 0b0011011#7
  | .sylFollow _ => 0b0011100#7
  | .reserved0011101 => 0b0011101#7
  | .reserved0011110 => 0b0011110#7
  | .stop => 0b0011111#7
  | .reserved0100000 => 0b0100000#7
  | .goto _ => 0b0100001#7
  | .igoto => 0b0100010#7
  | .call _ => 0b0100011#7
  | .icall => 0b0100100#7
  | .br _ _ => 0b0100101#7
  | .brf _ _ => 0b0100110#7
  | .ret _ _ => 0b0100111#7
  | .rfi => 0b0101000#7
  | .xnop _ => 0b0101001#7
  | .send _ => 0b0101010#7
  | .recv _ => 0b0101011#7
  | .reserved0101100 => 0b0101100#7
  | .reserved0101101 => 0b0101101#7
  | .reserved0101110 => 0b0101110#7
  | .reserved0101111 => 0b0101111#7
  | .slctf _ b1 _ _ => 0b0110#4 ++ b1.toBits
  | .slct _ b1 _ _ => 0b0111#4 ++ b1.toBits
  | .reserved1000000 => 0b1000000#7
  | .add _ _ _ => 0b1000001#7
  | .reserved1000010 => 0b1000010#7
  | .and _ _ _ => 0b1000011#7
  | .andc _ _ _ => 0b1000100#7
  | .max _ _ _ => 0b1000101#7
  | .maxu _ _ _ => 0b1000110#7
  | .min _ _ _ => 0b1000111#7
  | .minu _ _ _ => 0b1001000#7
  | .or _ _ _ => 0b1001001#7
  | .orc _ _ _ => 0b1001010#7
  | .sh1add _ _ _ => 0b1001011#7
  | .sh2add _ _ _ => 0b1001100#7
  | .sh3add _ _ _ => 0b1001101#7
  | .sh4add _ _ _ => 0b1001110#7
  | .shl _ _ _ => 0b1001111#7
  | .shr _ _ _ => 0b1010000#7
  | .shru _ _ _ => 0b1010001#7
  | .sub _ _ _ => 0b1010010#7
  | .sxtb _ _ => 0b1010011#7
  | .sxth _ _ => 0b1010100#7
  | .zxtb _ _ => 0b1010101#7
  | .zxth _ _ => 0b1010110#7
  | .xor _ _ _ => 0b1010111#7
  | .mov _ _ => 0b1011000#7
  | .cmpeq _ _ _ => 0b1011001#7
  | .cmpge _ _ _ => 0b1011010#7
  | .cmpgeu _ _ _ => 0b1011011#7
  | .cmpgt _ _ _ => 0b1011100#7
  | .cmpgtu _ _ _ => 0b1011101#7
  | .cmple _ _ _ => 0b1011110#7
  | .cmpleu _ _ _ => 0b1011111#7
  | .cmplt _ _ _ => 0b1100000#7
  | .cmpltu _ _ _ => 0b1100001#7
  | .cmpne _ _ _ => 0b1100010#7
  | .nandl _ _ _ => 0b1100011#7
  | .norl _ _ _ => 0b1100100#7
  | .reserved1100101 => 0b1100101#7
  | .orl _ _ _ => 0b1100110#7
  | .mtb _ _ => 0b1100111#7
  | .andl _ _ _ => 0b1101000#7
  | .reserved1101001 => 0b1101001#7
  | .reserved1101010 => 0b1101010#7
  | .reserved1101011 => 0b1101011#7
  | .reserved1101100 => 0b1101100#7
  | .reserved1101101 => 0b1101101#7
  | .reserved1101110 => 0b1101110#7
  | .reserved1101111 => 0b1101111#7
  | .divs _ _ b1 _ _ => 0b1110#4 ++ b1.toBits
  | .addcg _ _ b1 _ _ => 0b1111#4 ++ b1.toBits

/-- A syllable of the register form: `imm_sw` = 00, `L` = `F` = 0 (Table 30-B). -/
def registerWord (op : BitVec 7) (dst src1 src2 : GR) (bdst : BR) : Syllable :=
  op ++ 0b00#2 ++ dst.toBits ++ src1.toBits ++ src2.toBits ++ bdst.toBits ++ 0b00#2

/-- A syllable of the short or long immediate form (Table 30-B). -/
def immWord (op : BitVec 7) (sw : BitVec 2) (dst src1 : GR) (imm9 : Imm9) : Syllable :=
  op ++ sw ++ dst.toBits ++ src1.toBits ++ imm9 ++ 0b00#2

/-- A syllable of the branch offset form: `imm_sw` = 10 (Table 30-B). -/
def branchWord (op : BitVec 7) (dst : GR) (off12 : Off12) (bsrc : BR) : Syllable :=
  op ++ 0b10#2 ++ dst.toBits ++ off12 ++ bsrc.toBits ++ 0b00#2

/-- A SYL_FOLLOW syllable (44_misc.md R214). -/
def followWord (payload : BitVec 23) : Syllable := 0b0011100#7 ++ payload ++ 0b00#2

/-- The value is the sign extension of 9 bits, so the short form carries it (R65, R68). -/
def fitsShort (v : Word) : Bool := (v.setWidth (delta% Config.imm9Bits)).signExtend _ == v

/-- The syllables of a form with an immediate: the short form where it fits, else the long form (R68, R69). -/
def immWords (op : BitVec 7) (dst src1 : GR) (v : Word) : List Syllable :=
  if fitsShort v then [immWord op 0b01#2 dst src1 (v.setWidth _)]
  else [immWord op 0b11#2 dst src1 (v.setWidth _), followWord (v.extractLsb' (delta% Config.imm9Bits) 23)]

/-- The syllables of a form whose second source is a register or an immediate. -/
def src2Words (op : BitVec 7) (dst src1 : GR) : Src2 → List Syllable
  | .reg s2 => [registerWord op dst src1 s2 0]
  | .imm v => immWords op dst src1 v

/-- The syllables of type II: a BR target is `dst` = 0 with the index in `bdst` (R67). Form d has no encoding; the
words given here for it are never used, since `encode` refuses it (U21). -/
def truthWords (op : BitVec 7) (d : Target) (src1 : GR) (src2 : Src2) : List Syllable :=
  match d, src2 with
  | .gr t, .reg s2 => [registerWord op t src1 s2 0]
  | .gr t, .imm v => immWords op t src1 v
  | .br b, .reg s2 => [registerWord op 0 src1 s2 b]
  | .br _, .imm v => immWords op 0 src1 v

/-- The syllable of XNOP: the branch form when `n` is carried (Table 30-C, row XV). -/
def cyclesWords (op : BitVec 7) : Option Nat → List Syllable
  | none => [registerWord op 0 0 0 0]
  | some n => [branchWord op 0 (BitVec.ofNat _ n) 0]

/-- The syllables of an operation, without the check that it has an encoding. -/
def Instr.words : Instr → List Syllable
  | .nop => [registerWord 0b0000000#7 0 0 0 0]
  | .mpyll t s1 src2 => src2Words 0b0000001#7 t s1 src2
  | .mpyllu t s1 src2 => src2Words 0b0000010#7 t s1 src2
  | .mpylh t s1 src2 => src2Words 0b0000011#7 t s1 src2
  | .mpylhu t s1 src2 => src2Words 0b0000100#7 t s1 src2
  | .mpyhh t s1 src2 => src2Words 0b0000101#7 t s1 src2
  | .mpyhhu t s1 src2 => src2Words 0b0000110#7 t s1 src2
  | .mpyl t s1 src2 => src2Words 0b0000111#7 t s1 src2
  | .mpylu t s1 src2 => src2Words 0b0001000#7 t s1 src2
  | .mpyh t s1 src2 => src2Words 0b0001001#7 t s1 src2
  | .mpyhu t s1 src2 => src2Words 0b0001010#7 t s1 src2
  | .mpyhs t s1 src2 => src2Words 0b0001011#7 t s1 src2
  | .reserved0001100 => [registerWord 0b0001100#7 0 0 0 0]
  | .reserved0001101 => [registerWord 0b0001101#7 0 0 0 0]
  | .reserved0001110 => [registerWord 0b0001110#7 0 0 0 0]
  | .reserved0001111 => [registerWord 0b0001111#7 0 0 0 0]
  | .reserved0010000 => [registerWord 0b0010000#7 0 0 0 0]
  | .ldw t off s1 => immWords 0b0010001#7 t s1 off
  | .ldh t off s1 => immWords 0b0010010#7 t s1 off
  | .ldhu t off s1 => immWords 0b0010011#7 t s1 off
  | .ldb t off s1 => immWords 0b0010100#7 t s1 off
  | .ldbu t off s1 => immWords 0b0010101#7 t s1 off
  | .stw off s1 s2 => immWords 0b0010110#7 s2 s1 off
  | .sth off s1 s2 => immWords 0b0010111#7 s2 s1 off
  | .stb off s1 s2 => immWords 0b0011000#7 s2 s1 off
  | .pft off s1 => immWords 0b0011001#7 0 s1 off
  | .reserved0011010 => [registerWord 0b0011010#7 0 0 0 0]
  | .reserved0011011 => [registerWord 0b0011011#7 0 0 0 0]
  | .sylFollow payload => [followWord payload]
  | .reserved0011101 => [registerWord 0b0011101#7 0 0 0 0]
  | .reserved0011110 => [registerWord 0b0011110#7 0 0 0 0]
  | .stop => [registerWord 0b0011111#7 0 0 0 0]
  | .reserved0100000 => [registerWord 0b0100000#7 0 0 0 0]
  | .goto off => [branchWord 0b0100001#7 0 (BitVec.ofInt _ off) 0]
  | .igoto => [registerWord 0b0100010#7 0 0 0 0]
  | .call off => [branchWord 0b0100011#7 0 (BitVec.ofInt _ off) 0]
  | .icall => [registerWord 0b0100100#7 0 0 0 0]
  | .br b off => [branchWord 0b0100101#7 0 (BitVec.ofInt _ off) b]
  | .brf b off => [branchWord 0b0100110#7 0 (BitVec.ofInt _ off) b]
  | .ret t frame => [branchWord 0b0100111#7 t (BitVec.ofInt _ frame) 0]
  | .rfi => [registerWord 0b0101000#7 0 0 0 0]
  | .xnop n => cyclesWords 0b0101001#7 n
  | .send _ => [registerWord 0b0101010#7 0 0 0 0]
  | .recv _ => [registerWord 0b0101011#7 0 0 0 0]
  | .reserved0101100 => [registerWord 0b0101100#7 0 0 0 0]
  | .reserved0101101 => [registerWord 0b0101101#7 0 0 0 0]
  | .reserved0101110 => [registerWord 0b0101110#7 0 0 0 0]
  | .reserved0101111 => [registerWord 0b0101111#7 0 0 0 0]
  | .slctf t b1 s1 src2 => src2Words (0b0110#4 ++ b1.toBits) t s1 src2
  | .slct t b1 s1 src2 => src2Words (0b0111#4 ++ b1.toBits) t s1 src2
  | .reserved1000000 => [registerWord 0b1000000#7 0 0 0 0]
  | .add t s1 src2 => src2Words 0b1000001#7 t s1 src2
  | .reserved1000010 => [registerWord 0b1000010#7 0 0 0 0]
  | .and t s1 src2 => src2Words 0b1000011#7 t s1 src2
  | .andc t s1 src2 => src2Words 0b1000100#7 t s1 src2
  | .max t s1 src2 => src2Words 0b1000101#7 t s1 src2
  | .maxu t s1 src2 => src2Words 0b1000110#7 t s1 src2
  | .min t s1 src2 => src2Words 0b1000111#7 t s1 src2
  | .minu t s1 src2 => src2Words 0b1001000#7 t s1 src2
  | .or t s1 src2 => src2Words 0b1001001#7 t s1 src2
  | .orc t s1 src2 => src2Words 0b1001010#7 t s1 src2
  | .sh1add t s1 src2 => src2Words 0b1001011#7 t s1 src2
  | .sh2add t s1 src2 => src2Words 0b1001100#7 t s1 src2
  | .sh3add t s1 src2 => src2Words 0b1001101#7 t s1 src2
  | .sh4add t s1 src2 => src2Words 0b1001110#7 t s1 src2
  | .shl t s1 src2 => src2Words 0b1001111#7 t s1 src2
  | .shr t s1 src2 => src2Words 0b1010000#7 t s1 src2
  | .shru t s1 src2 => src2Words 0b1010001#7 t s1 src2
  | .sub t src2 s1 => src2Words 0b1010010#7 t s1 src2
  | .sxtb t s1 => [registerWord 0b1010011#7 t s1 0 0]
  | .sxth t s1 => [registerWord 0b1010100#7 t s1 0 0]
  | .zxtb t s1 => [registerWord 0b1010101#7 t s1 0 0]
  | .zxth t s1 => [registerWord 0b1010110#7 t s1 0 0]
  | .xor t s1 src2 => src2Words 0b1010111#7 t s1 src2
  | .mov t s1 => [registerWord 0b1011000#7 t s1 0 0]
  | .cmpeq d s1 src2 => truthWords 0b1011001#7 d s1 src2
  | .cmpge d s1 src2 => truthWords 0b1011010#7 d s1 src2
  | .cmpgeu d s1 src2 => truthWords 0b1011011#7 d s1 src2
  | .cmpgt d s1 src2 => truthWords 0b1011100#7 d s1 src2
  | .cmpgtu d s1 src2 => truthWords 0b1011101#7 d s1 src2
  | .cmple d s1 src2 => truthWords 0b1011110#7 d s1 src2
  | .cmpleu d s1 src2 => truthWords 0b1011111#7 d s1 src2
  | .cmplt d s1 src2 => truthWords 0b1100000#7 d s1 src2
  | .cmpltu d s1 src2 => truthWords 0b1100001#7 d s1 src2
  | .cmpne d s1 src2 => truthWords 0b1100010#7 d s1 src2
  | .nandl d s1 src2 => truthWords 0b1100011#7 d s1 src2
  | .norl d s1 src2 => truthWords 0b1100100#7 d s1 src2
  | .reserved1100101 => [registerWord 0b1100101#7 0 0 0 0]
  | .orl d s1 src2 => truthWords 0b1100110#7 d s1 src2
  | .mtb b s1 => [registerWord 0b1100111#7 0 s1 0 b]
  | .andl d s1 src2 => truthWords 0b1101000#7 d s1 src2
  | .reserved1101001 => [registerWord 0b1101001#7 0 0 0 0]
  | .reserved1101010 => [registerWord 0b1101010#7 0 0 0 0]
  | .reserved1101011 => [registerWord 0b1101011#7 0 0 0 0]
  | .reserved1101100 => [registerWord 0b1101100#7 0 0 0 0]
  | .reserved1101101 => [registerWord 0b1101101#7 0 0 0 0]
  | .reserved1101110 => [registerWord 0b1101110#7 0 0 0 0]
  | .reserved1101111 => [registerWord 0b1101111#7 0 0 0 0]
  | .divs t b b1 s1 s2 => [registerWord (0b1110#4 ++ b1.toBits) t s1 s2 b]
  | .addcg t b b1 s1 s2 => [registerWord (0b1111#4 ++ b1.toBits) t s1 s2 b]

/-! ### The parameter LAYOUT -/

/-- A way to write operations as syllables, and to read them: everything of Level B that a model may replace as a
whole (00_scope.md R5, 30_encoding.md R61). -/
structure Layout where
  /-- Where the opcode stands. -/
  opcode : Syllable → BitVec 7
  /-- Where the immediate switch stands. -/
  immSw : Syllable → BitVec 2
  /-- The operation of a syllable, given the syllables after it in the bundle. -/
  decode : Syllable → List Syllable → Decoded
  /-- The operations that have an encoding. -/
  admits : Instr → Bool
  /-- The syllables of an operation that has one. -/
  words : Instr → List Syllable
  /-- The marks an assembler sets in a bundle. -/
  mark : Bundle → Bundle

/-- The marks an assembler sets: `F` = 1 in the first slot, `L` = 1 in the last (R72). -/
def markBundle (b : Bundle) : Bundle :=
  Vector.ofFn fun k =>
    b[k] ||| (if k.val = 0 then 1 else 0) ||| (if k.val + 1 = Config.issueWidth then 2 else 0)

/-- Tables 30-B and 30-C. PRESUMED by the spec itself: notes/assumptions/8.md. -/
def rvexLayout : Layout where
  opcode := Syllable.opcode
  immSw := Syllable.immSw
  decode := decodeSyllable
  admits := Instr.wellFormed
  words := Instr.words
  mark := markBundle

/-- `LAYOUT` (00_scope.md Table 00-A). Bundles are decoded, operations encoded and programs assembled through it. -/
def Config.layout : Layout := rvexLayout

/-- The syllables of an operation; one without an encoding is refused (U21, U24). -/
def encode (i : Instr) : Option (List Syllable) :=
  if Config.layout.admits i then some (Config.layout.words i) else none

/-- A bundle from a list of syllables, the missing ones NOP (R71, 44_misc.md R211). -/
def padBundle (ws : List Syllable) : Bundle := Vector.ofFn fun k => ws.getD k.val 0

/-- The bundle an assembler makes of operations that fit one (R71, R72, R77). -/
def assemble (is : List Instr) : Option Bundle :=
  if is.all Config.layout.admits && decide ((is.flatMap Config.layout.words).length ≤ Config.issueWidth) then
    some (Config.layout.mark (padBundle (is.flatMap Config.layout.words)))
  else none

/-! ### Instructions as spec/opcode_table.json numbers their bits -/

/-- The syllable number `k` of an instruction whose bits are `w`, the first syllable lowest. -/
def tableSyllable (w k : Nat) : Syllable := BitVec.ofNat _ (w >>> (Config.syllableBits * k))

/-- The syllables of the bundle whose `nbits` low bits are those of `w` and whose further bits are zero. -/
def tableSyllables (nbits w : Nat) : List Syllable :=
  (List.range Config.issueWidth).map (tableSyllable (w % 2 ^ nbits))

/-- The instruction the decoder reads from the first syllable of a list. -/
def decodeFirst : List Syllable → Option Instr
  | [] => none
  | w :: rest =>
    match Config.layout.decode w rest with
    | .error _ => none
    | .ok (i, _) => some i

/-- The instruction the decoder reads from bits numbered as spec/opcode_table.json numbers them. Instruction memory
holds whole syllables, so no byte order enters (20_memory.md R40). -/
def decodeTableWord (nbits w : Nat) : Option Instr := decodeFirst (tableSyllables nbits w)

end Sys2Proof
end

