-- ==== Sys2Proof/Machine/Params.lean ====
section
/-! DEFINITION. The parameters of spec/00_scope.md Table 00-A that are values or functions, each at its default; every
rule reads them here by name (R6). The sizes stand in Sys2Proof/Word.lean and Sys2Proof/Config.lean, `LAYOUT` is
`Config.layout` in Sys2Proof/Decode.lean, `ROP` is `Params.rop` in Sys2Proof/Machine/Rop.lean, and the launch
parameters `IMEM_BUNDLES` and `DMEM_BYTES` are parts of State. Marks: notes/assumptions/6.md, 9.md, 10.md, 11.md, 15.md
and 19.md. -/

namespace Sys2Proof.Machine.Params

/-- A byte order of data memory. -/
inductive Endian where
  | big
  | little
  deriving DecidableEq, Repr

/-- `ENDIAN`: big (20_memory.md R40). -/
def endian : Endian := .big

/-- `ZERO_REG`: `$r0.0` reads as zero and ignores writes (10_state.md R21). -/
def zeroReg : Bool := true

/-- `LR_INDEX`: the link register is GR 63 (10_state.md R23). -/
def lrIndex : GR := 63

/-- `DMEM_BASE`: the first byte address of data memory (20_memory.md R45). -/
def dmemBase : Nat := 0

/-- What a misaligned data access may do: 20_memory.md R43 names a fault, and what a chip may do in its place. -/
inductive Misaligned where
  /-- The access raises `Misaligned` and performs nothing. -/
  | fault
  /-- The access ignores the low address bits. -/
  | ignoreLowBits
  /-- The access is split into its bytes. -/
  | split
  deriving DecidableEq, Repr

/-- `MISALIGNED`: fault (20_memory.md R43). -/
def misaligned : Misaligned := .fault

/-- The operations that shift by an amount (40_alu.md R115 to R117). -/
inductive Shift where
  | shl
  | shr
  | shru
  deriving DecidableEq, Repr

/-- `SHIFT_OOB`: the result of a shift whose amount is above 31, none for a draw, or a function of the value shifted and
the amount; a draw for every shift (40_alu.md R115 to R117, U5 of 93_implementation_defined.md). -/
def shiftOob : Shift → Option (Word → Word → Word) := fun _ => none

/-- `LATENCY` of one operation, from 1 to `Config.latency`: the number of bundles before its results are visible. It is
the same for every operation (70_reset_and_hazards.md R260). -/
def latency (_i : Instr) : { n : Nat // 1 ≤ n ∧ n ≤ Config.latency } := ⟨Config.latency, by decide⟩

/-- What the pc may count. -/
inductive PcUnit where
  | bundle
  | syllable
  | byte
  deriving DecidableEq, Repr

/-- The number of units in one bundle. -/
def PcUnit.perBundle : PcUnit → Nat
  | .bundle => 1
  | .syllable => Config.issueWidth
  | .byte => Config.issueWidth * Config.syllableBits / 8

/-- `PC_UNIT`: bundles (10_state.md R26). -/
def pcUnit : PcUnit := .bundle

/-- The distance in the pc from one bundle to the next (10_state.md R26). -/
def pcStep : Nat := pcUnit.perBundle

/-- `BRANCH_BASE`: what a relative displacement is added to, given the pc of the bundle that holds the branch
(30_encoding.md R70). -/
def branchBase (pc : Int) : Int := pc

/-- `MAX_CTRL_PER_BUNDLE` (30_encoding.md R80). -/
def maxCtrlPerBundle : Nat := 1

/-- `MAX_MEM_PER_BUNDLE` (30_encoding.md R80). -/
def maxMemPerBundle : Nat := 1

end Sys2Proof.Machine.Params
end

