-- ==== Sys2Proof/Machine/State.lean ====
section
/-! DEFINITION. The state of the machine as plain data (spec/10_state.md), the faults of spec/60_exceptions.md Table
60-A, the outcomes of a step, and the state after reset. -/

namespace Sys2Proof.Machine

/-- Data memory (10_state.md R28): the bytes that the launch or a store has given a value, addresses strictly rising.
A byte that is not listed has no value, and reading it raises `UnwrittenRead` (20_memory.md R41). -/
abbrev Memory := List Host.Cell

/-- The canonical form of a memory: addresses strictly rising. -/
abbrev Memory.wf (m : Memory) : Prop := List.Pairwise (fun x y => x.1 < y.1) m

/-- The reasons of `BadBundle` (60_exceptions.md R230). -/
inductive BundleReason where
  | twoBranches
  | twoMemOps
  | writeConflict
  deriving DecidableEq, Repr

/-- What an `UnwrittenRead` reports: the file and the index, or the effective address of the load (60_exceptions.md
R222). -/
inductive ReadPlace where
  | gr (i : GR)
  | br (i : BR)
  | dmem (addr : Word)
  deriving DecidableEq, Repr

/-- The operations without a meaning on this hardware (60_exceptions.md R231). -/
inductive UnsupportedOp where
  | rfi
  | send
  | recv
  deriving DecidableEq, Repr

/-- The faults the spec names, with the information recorded (60_exceptions.md Table 60-A). A fault is raised into the
state's `fault` field and ends the run (R220). Safe: a program that raises one has no final state. -/
inductive Cause where
  /-- Raised by fetch when the pc is outside instruction memory (R226). -/
  | imemRange (pc : Int)
  /-- Raised by decode on one of the 24 reserved codes (R228). -/
  | illegalOpcode (slot : Nat) (opcode : BitVec 7)
  /-- Raised by decode on a SYL_FOLLOW that no long immediate consumes (R227). -/
  | orphanFollow (slot : Nat)
  /-- Raised by decode on a long immediate without its second syllable (R227). -/
  | badLongImm (slot : Nat)
  /-- Raised by decode on a switch that the opcode's type does not admit (R225). -/
  | badForm (slot : Nat) (opcode : BitVec 7) (immSw : BitVec 2)
  /-- Raised by the bundle check (R230). -/
  | badBundle (reason : BundleReason)
  /-- Raised by an operation that reads what nothing has written (R222). -/
  | unwrittenRead (place : ReadPlace)
  /-- Raised by a halfword or word access off its natural alignment (R223). -/
  | misaligned (addr : Word) (size : Nat)
  /-- Raised by an access with a byte outside data memory (R224). -/
  | dmemRange (addr : Word) (size : Nat)
  /-- Raised by RFI, SEND and RECV (R231). -/
  | unsupported (op : UnsupportedOp)
  deriving DecidableEq, Repr

/-- Why the machine takes no step at all (30_encoding.md R81, U22 of 93_implementation_defined.md). Raised by `step`
alone, never by the meaning of an operation. Safe: the spec says that no step exists. -/
inductive Fault where
  /-- STOP has halted the machine (44_misc.md R210). -/
  | halted
  /-- An earlier bundle has raised the fault named (60_exceptions.md R220). -/
  | faulted (cause : Cause)
  deriving DecidableEq, Repr

/-- An instruction without a meaning in the model. No arm of `exec` answers it. Safe. -/
inductive Refusal where
  | notModelled (mnemonic : String)
  deriving DecidableEq, Repr

/-- A result of an operation: what it writes, and where (70_reset_and_hazards.md R260). -/
inductive Write where
  /-- `r[i] <- v`. -/
  | gr (i : GR) (v : Word)
  /-- `b[i] <- c`. -/
  | br (i : BR) (c : Bool)
  /-- Bytes of data memory from an address on, in address order. -/
  | dmem (a : Nat) (bytes : List Byte)
  deriving DecidableEq, Repr

/-- Everything the spec gives the machine (10_state.md Table 10-A, 60_exceptions.md R220, 70_reset_and_hazards.md R260), and
one field of the model's own, `draws`. -/
structure State where
  /-- The general registers (R20), the link register among them (R23). -/
  gr : Vector Word (delta% Config.ngr)
  /-- Which general registers have been given a value (R30). -/
  grWritten : Vector Bool (delta% Config.ngr)
  /-- The branch registers, one bit each (R24). -/
  br : Vector Bool (delta% Config.nbr)
  /-- Which branch registers have been given a value (R30). -/
  brWritten : Vector Bool (delta% Config.nbr)
  /-- The place of the bundle to execute, an integer, with `PC_UNIT` = bundle its index (R26). -/
  pc : Pc
  /-- Instruction memory, `IMEM_BUNDLES` bundles long (R27). -/
  imem : List Bundle
  /-- `DMEM_BYTES`, the size of data memory (20_memory.md R45). -/
  dmemBytes : Nat
  /-- Data memory (R28). -/
  dmem : Memory
  /-- Set by STOP (R29). -/
  halted : Bool
  /-- The first fault raised (R29). -/
  fault : Option Cause
  /-- The results on their way, those at place `k` visible after `k + 1` more bundles. LATENCY is 1, so there are no
  places (70_reset_and_hazards.md R260). -/
  inFlight : Vector (List Write) Config.inFlight
  /-- The model's own: how many bundles have drawn a free value (notes/assumptions/6.md). -/
  draws : Nat
  deriving DecidableEq, Repr

/-- The outcome of an operation or of a step. -/
abbrev Result := Host.Outcome State Fault Refusal

/-- Right after reset, before a launch names anything (10_state.md Table 10-A): every register but `$r0.0` unwritten. -/
def State.bareReset : State where
  gr := Vector.replicate _ 0
  grWritten := Vector.replicate _ false
  br := Vector.replicate _ false
  brWritten := Vector.replicate _ false
  pc := 0
  imem := []
  dmemBytes := 2 ^ 32
  dmem := []
  halted := false
  fault := none
  inFlight := Vector.replicate _ []
  draws := 0

/-- The machine right after reset (10_state.md R33), launched with the value 0 for every register, as R252 of
70_reset_and_hazards.md lets a launch do. DESIGN CHOICE, unsafe: notes/assumptions/1.md. -/
def State.reset : State where
  gr := Vector.replicate _ 0
  grWritten := Vector.replicate _ true
  br := Vector.replicate _ false
  brWritten := Vector.replicate _ true
  pc := 0
  imem := []
  dmemBytes := 2 ^ 32
  dmem := []
  halted := false
  fault := none
  inFlight := Vector.replicate _ []
  draws := 0

end Sys2Proof.Machine
end

