-- ==== Sys2Proof/Machine/Rop.lean ====
section
/-! DEFINITION. What an operation reads and writes, as Table 30-C of spec/30_encoding.md lists it, and the parameter
`ROP` (spec/00_scope.md Table 00-A; spec/30_encoding.md R75), which may give a reserved code a meaning. -/

namespace Sys2Proof.Machine

/-- The access widths (20_memory.md R44). -/
inductive Width where
  | byte
  | half
  | word
  deriving DecidableEq, Repr

/-- Where a store puts its bytes: at `ea = r[base] + offset` (43_mem.md R200), in this width (20_memory.md R44). -/
structure StoreAt where
  base : GR
  offset : Word
  width : Width
  deriving DecidableEq, Repr

/-- What an operation reads and writes, and whether it is counted as a control transfer or a memory operation. -/
structure Access where
  /-- GR read. -/
  grReads : List GR := []
  /-- BR read. -/
  brReads : List BR := []
  /-- GR written. -/
  grWrites : List GR := []
  /-- BR written. -/
  brWrites : List BR := []
  /-- One of GOTO, IGOTO, CALL, ICALL, BR, BRF, RETURN (R80 a). -/
  control : Bool := false
  /-- One of LDW, LDH, LDHU, LDB, LDBU, STW, STH, STB (R80 b). -/
  memory : Bool := false
  /-- Data memory written, by STW, STH and STB. -/
  store : Option StoreAt := none
  deriving DecidableEq, Repr

/-- A meaning for a reserved code: its row of Table 30-C, and what it does once its registers can be read. The source
gives no reserved code an operand, so neither does this. -/
structure RopMeaning where
  access : Access
  result : State → Result

/-- `ROP`: the meanings of the reserved codes, empty (R75). DESIGN CHOICE, the spec's default, safe:
notes/assumptions/11.md. -/
def Params.rop : BitVec 7 → Option RopMeaning := fun _ => none

/-- The row of Table 30-C of a reserved code: nothing, unless `ROP` gives the code a meaning. -/
def ropAccess (opcode : BitVec 7) : Access :=
  match Params.rop opcode with
  | some m => m.access
  | none => {}

end Sys2Proof.Machine
end

