-- ==== Sys2Proof/Machine/Ops.lean ====
section
/-! DEFINITION. The named operations over the registers and data memory, and raising a fault (spec/10_state.md,
spec/20_memory.md, spec/60_exceptions.md). -/

namespace Sys2Proof.Machine

/-! ### Raising a fault -/

/-- `raise F(info)` (60_exceptions.md R220): the fault is recorded and nothing else changes. The machine has no trap
entry, no handler and no return from one (R235, R236); this is all that taking a fault does. -/
def State.raise (s : State) (c : Cause) : State := { s with fault := some c }

/-- The end of a bundle without a taken control operation: `pc <- pc + 1`, one bundle on (10_state.md R26). -/
def State.advance (s : State) : State := { s with pc := s.pc + Params.pcStep }

/-! ### Registers -/

/-- The register is the hard-wired zero (10_state.md R21). -/
def isZeroReg (i : GR) : Bool := Params.zeroReg && i == 0

/-- `r[i]` (00_scope.md R9, 10_state.md R21). -/
def State.readGr (s : State) (i : GR) : Word := if isZeroReg i then 0 else s.gr[i]

/-- `r[i] <- v` (10_state.md R21, R30): `$r0.0` discards the write, any other register is now written. -/
def State.writeGr (s : State) (i : GR) (v : Word) : State :=
  if isZeroReg i then s else { s with gr := s.gr.set i v, grWritten := s.grWritten.set i true }

/-- `b[i]` (10_state.md R24). -/
def State.readBr (s : State) (i : BR) : Bool := s.br[i]

/-- `b[i] <- v` (10_state.md R24, R30). -/
def State.writeBr (s : State) (i : BR) (v : Bool) : State :=
  { s with br := s.br.set i v, brWritten := s.brWritten.set i true }

/-- Reading the GR raises nothing: it is `$r0.0` or has been written (10_state.md R30). -/
def State.grReady (s : State) (i : GR) : Bool := isZeroReg i || s.grWritten[i]

/-- Reading the BR raises nothing (10_state.md R30). -/
def State.brReady (s : State) (i : BR) : Bool := s.brWritten[i]

/-- The lowest GR of a list that nothing has written (60_exceptions.md R233). -/
def State.lowestUnwrittenGr (s : State) : List GR → Option GR
  | [] => none
  | i :: rest =>
    if s.grReady i then s.lowestUnwrittenGr rest
    else
      match s.lowestUnwrittenGr rest with
      | none => some i
      | some j => some (min i j)

/-- The lowest BR of a list that nothing has written (60_exceptions.md R233). -/
def State.lowestUnwrittenBr (s : State) : List BR → Option BR
  | [] => none
  | i :: rest =>
    if s.brReady i then s.lowestUnwrittenBr rest
    else
      match s.lowestUnwrittenBr rest with
      | none => some i
      | some j => some (min i j)

/-- The `UnwrittenRead` of an operation that reads these registers: GR before BR, the lower index first
(60_exceptions.md R222, R233). -/
def State.unwritten (s : State) (grs : List GR) (brs : List BR) : Option ReadPlace :=
  match s.lowestUnwrittenGr grs with
  | some i => some (.gr i)
  | none =>
    match s.lowestUnwrittenBr brs with
    | some i => some (.br i)
    | none => none

/-- An operation that reads these registers: it raises `UnwrittenRead` when one has not been written, else it goes on
(60_exceptions.md R222). Every register is read, whether or not the result depends on it. -/
def reading (grs : List GR) (brs : List BR) (s : State) (k : Result) : Result :=
  match s.unwritten grs brs with
  | some p => .next (s.raise (.unwrittenRead p))
  | none => k

/-! ### The link register (10_state.md R23) -/

/-- `lr`. -/
def State.readLr (s : State) : Word := s.readGr Params.lrIndex

/-- `lr <- v`. -/
def State.writeLr (s : State) (v : Word) : State := s.writeGr Params.lrIndex v

/-! ### Data memory -/

/-- The value of one byte, none when nothing has given it one. -/
def Memory.read : Memory → Nat → Option Byte
  | [], _ => none
  | (k, b) :: rest, a => if k = a then some b else Memory.read rest a

/-- One byte stored; the canonical form stays. -/
def Memory.write : Memory → Nat → Byte → Memory
  | [], a, b => [(a, b)]
  | (k, v) :: rest, a, b =>
    if a < k then (a, b) :: (k, v) :: rest
    else if a = k then (a, b) :: rest
    else (k, v) :: Memory.write rest a b

/-- The `n` bytes from an address on, in address order, none when one of them has no value. -/
def Memory.readBytes (m : Memory) (a : Nat) : Nat → Option (List Byte)
  | 0 => some []
  | n + 1 =>
    match m.read a, m.readBytes (a + 1) n with
    | some b, some bs => some (b :: bs)
    | _, _ => none

/-- Bytes stored from an address on, in address order. -/
def Memory.writeBytes (m : Memory) (a : Nat) : List Byte → Memory
  | [] => m
  | b :: bs => (m.write a b).writeBytes (a + 1) bs

/-- The number whose base-256 digits are the bytes, the most significant first. -/
def joinBig : List Byte → Word
  | [] => 0
  | b :: bs => (b.setWidth _ <<< (8 * bs.length)) ||| joinBig bs

/-- The value that bytes in address order stand for (20_memory.md R41). -/
def joinBytes (e : Params.Endian) (bs : List Byte) : Word :=
  match e with
  | .big => joinBig bs
  | .little => joinBig bs.reverse

/-- The low `n` bytes of a value, the most significant first (20_memory.md R42). -/
def splitBig (v : Word) : Nat → List Byte
  | 0 => []
  | n + 1 => v.extractLsb' (8 * n) 8 :: splitBig v n

/-- The low `n` bytes of a value in address order (20_memory.md R42). -/
def splitBytes (e : Params.Endian) (v : Word) (n : Nat) : List Byte :=
  match e with
  | .big => splitBig v n
  | .little => (splitBig v n).reverse

/-- The size of an access in bytes (20_memory.md R44). -/
def Width.bytes : Width → Nat
  | .byte => 1
  | .half => 2
  | .word => 4

/-- All bytes of the access lie in data memory; the access does not wrap (20_memory.md R41). -/
def State.inDmem (s : State) (addr : Word) (w : Width) : Bool :=
  decide (Params.dmemBase ≤ addr.toNat ∧ addr.toNat + w.bytes ≤ Params.dmemBase + s.dmemBytes)

/-- The address of the first byte an access reaches: its own, unless `MISALIGNED` drops the low bits (20_memory.md
R43; the checks of an access that does so are DESIGN CHOICE, notes/assumptions/24.md). -/
def accessAddr (addr : Word) (w : Width) : Word :=
  match Params.misaligned with
  | .fault => addr
  | .ignoreLowBits => addr - BitVec.ofNat _ (addr.toNat % w.bytes)
  | .split => addr

/-- The access raises `Misaligned` (20_memory.md R43). -/
def misalignedFaults (addr : Word) (w : Width) : Bool :=
  match Params.misaligned with
  | .fault => addr.toNat % w.bytes != 0
  | .ignoreLowBits => false
  | .split => false

/-- The fault of an access, alignment before range (20_memory.md R41 to R43, 60_exceptions.md R224). -/
def State.accessFault (s : State) (addr : Word) (w : Width) : Option Cause :=
  if misalignedFaults addr w then some (.misaligned addr w.bytes)
  else if s.inDmem (accessAddr addr w) w then none
  else some (.dmemRange addr w.bytes)

/-- `MemRead(addr, n)` (20_memory.md R41), the value zero-extended to a word. -/
def State.memRead (s : State) (addr : Word) (w : Width) : Except Cause Word :=
  match s.accessFault addr w with
  | some c => .error c
  | none =>
    match s.dmem.readBytes (accessAddr addr w).toNat w.bytes with
    | some bs => .ok (joinBytes Params.endian bs)
    | none => .error (.unwrittenRead (.dmem addr))

/-- `MemWrite(addr, n, v)` (20_memory.md R42). -/
def State.memWrite (s : State) (addr : Word) (w : Width) (v : Word) : Except Cause State :=
  match s.accessFault addr w with
  | some c => .error c
  | none =>
    .ok { s with dmem := s.dmem.writeBytes (accessAddr addr w).toNat (splitBytes Params.endian v w.bytes) }

end Sys2Proof.Machine
end

