-- ==== Sys2Proof/Machine/Operands.lean ====
section
/-! DEFINITION. Operand forms: the second source, immediates, halves and extensions, the effective address, jump
targets, and the shared shapes of the operations of one type (spec/30_encoding.md Table 30-C). -/

namespace Sys2Proof.Machine

/-! ### Operands -/

/-- The GR a second source reads, if any (Table 30-C). -/
def srcReads : Src2 → List GR
  | .reg s2 => [s2]
  | .imm _ => []

/-- `src2`: `r[s2]` or the immediate (00_scope.md R11, 40_alu.md R100). -/
def State.src2 (s : State) : Src2 → Word
  | .reg s2 => s.readGr s2
  | .imm v => v

/-- `ea = r[s1] + imm`, modulo 2^32, the offset in bytes (43_mem.md R200). -/
def State.ea (s : State) (s1 : GR) (off : Word) : Word := s.readGr s1 + off

/-- The target of a relative control operation; the displacement counts bundles (42_ctrl.md R170, 30_encoding.md
R70). -/
def State.relTarget (s : State) (off : Int) : Pc := Params.branchBase s.pc + off * Params.pcStep

/-- The target of an indirect control operation: the link register as an unsigned pc (42_ctrl.md R170). -/
def State.indirectTarget (s : State) : Pc := (s.readLr.toNat : Int)

/-- The value a call leaves in the link register: `(pc + 1) mod 2^32`, the bundle after the call (42_ctrl.md R173). -/
def State.linkValue (s : State) : Word := BitVec.ofInt _ s.advance.pc

/-- The bundle ends with `pc <- target` (42_ctrl.md R170). -/
def State.jump (s : State) (target : Pc) : State := { s with pc := target }

/-! ### Halves and extensions (00_scope.md R8, 41_mul.md R150) -/

/-- `v[15:0]`. -/
def lo (v : Word) : BitVec 16 := v.extractLsb' 0 16
/-- `v[31:16]`. -/
def hi (v : Word) : BitVec 16 := v.extractLsb' 16 16
/-- `sext_8`. -/
def sext8 (v : Word) : Word := (v.setWidth 8).signExtend _
/-- `sext_16`. -/
def sext16 (v : Word) : Word := (v.setWidth 16).signExtend _
/-- `zext_8`. -/
def zext8 (v : Word) : Word := (v.setWidth 8).setWidth _
/-- `zext_16`. -/
def zext16 (v : Word) : Word := (v.setWidth 16).setWidth _

/-! ### Shapes of operations -/

/-- Types I and VI: `r[t] <- f(r[s1], src2)` (Table 30-C rows I and VI). -/
def binaryOp (t s1 : GR) (a : Src2) (f : Word → Word → Word) (s : State) : Result :=
  reading (s1 :: srcReads a) [] s (.next ((s.writeGr t (f (s.readGr s1) (s.src2 a))).advance))

/-- A draw of `SHIFT_OOB` for the target `t`; the count of drawing bundles advances (40_alu.md R115). -/
def State.drawTo (s : State) (t : GR) : State :=
  { s.writeGr t (Config.draw32 s.draws t) with draws := s.draws + 1 }

/-- `r[t] <- SHIFT_OOB`: a draw, or the function that the parameter gives (40_alu.md R115). -/
def State.shiftOut (s : State) (op : Params.Shift) (t : GR) (v amount : Word) : State :=
  match Params.shiftOob op with
  | none => s.drawTo t
  | some f => s.writeGr t (f v amount)

/-- The shifts: the amount is `unsigned(src2)`, and an amount above 31 gives SHIFT_OOB (40_alu.md R115 to R117). -/
def shiftOp (op : Params.Shift) (t s1 : GR) (a : Src2) (f : Word → Nat → Word) (s : State) : Result :=
  reading (s1 :: srcReads a) [] s
    (if (s.src2 a).toNat ≤ 31 then .next ((s.writeGr t (f (s.readGr s1) (s.src2 a).toNat)).advance)
     else .next (s.shiftOut op t (s.readGr s1) (s.src2 a)).advance)

/-- Type VII: `r[t] <- f(r[s1])` (Table 30-C row VII). -/
def unaryOp (t s1 : GR) (f : Word → Word) (s : State) : Result :=
  reading [s1] [] s (.next ((s.writeGr t (f (s.readGr s1))).advance))

/-- Type III: `r[t] <- f(b[b1], r[s1], src2)` (Table 30-C rows III). -/
def selectOp (t : GR) (b1 : BR) (s1 : GR) (a : Src2) (f : Bool → Word → Word → Word) (s : State) : Result :=
  reading (s1 :: srcReads a) [b1] s
    (.next ((s.writeGr t (f (s.readBr b1) (s.readGr s1) (s.src2 a))).advance))

/-- Type IV: `r[t]` and `b[b]` from `b[b1]`, `r[s1]` and `r[s2]` (Table 30-C row IV). -/
def carryOp (t : GR) (b b1 : BR) (s1 s2 : GR) (value : Bool → Word → Word → Word) (carry : Bool → Word → Word → Bool)
    (s : State) : Result :=
  reading [s1, s2] [b1] s
    (.next (((s.writeGr t (value (s.readBr b1) (s.readGr s1) (s.readGr s2))).writeBr b
      (carry (s.readBr b1) (s.readGr s1) (s.readGr s2))).advance))

/-- Type X: `r[t] <- ext(MemRead(ea, n))` (43_mem.md R190 to R194, R201). -/
def loadOp (w : Width) (ext : Word → Word) (t : GR) (off : Word) (s1 : GR) (s : State) : Result :=
  reading [s1] [] s
    (match s.memRead (s.ea s1 off) w with
     | .error c => .next (s.raise c)
     | .ok v => .next ((s.writeGr t (ext v)).advance))

/-- Type XI: `MemWrite(ea, n, r[s2])` (43_mem.md R195 to R197, R201). -/
def storeOp (w : Width) (off : Word) (s1 s2 : GR) (s : State) : Result :=
  reading [s1, s2] [] s
    (match s.memWrite (s.ea s1 off) w (s.readGr s2) with
     | .error c => .next (s.raise c)
     | .ok s' => .next s'.advance)

/-- Type VIII: a relative branch when the condition holds, else the next bundle (42_ctrl.md R175, R176). -/
def branchOp (b : BR) (off : Int) (taken : Bool → Bool) (s : State) : Result :=
  reading [] [b] s (.next (if taken (s.readBr b) then s.jump (s.relTarget off) else s.advance))

/-- A reserved code met alone in slot 0: `IllegalOpcode`, unless `ROP` gives it a meaning (30_encoding.md R75). -/
def reservedOp (opcode : BitVec 7) (s : State) : Result :=
  match Params.rop opcode with
  | some m => reading m.access.grReads m.access.brReads s (m.result s)
  | none => .next (s.raise (.illegalOpcode 0 opcode))

/-- An operation without a meaning on this hardware (60_exceptions.md R231). -/
def unsupportedOp (op : UnsupportedOp) (s : State) : Result := .next (s.raise (.unsupported op))

end Sys2Proof.Machine
end

