-- ==== Sys2Proof/Machine/Access.lean ====
section
/-! DEFINITION. Table 30-C (spec/30_encoding.md R67; spec/10_state.md R22, R25): the registers each operation reads and
writes, and the units it uses (R80). -/

namespace Sys2Proof.Machine

/-- The GR a type II form writes (Table 30-C rows II). -/
def targetGrWrites : Target → List GR
  | .gr t => [t]
  | .br _ => []

/-- The BR a type II form writes (Table 30-C rows II). -/
def targetBrWrites : Target → List BR
  | .gr _ => []
  | .br b => [b]

/-- Table 30-C. -/
def access : Instr → Access
  | .nop => {}
  | .mpyll t s1 src2 => { grReads := s1 :: srcReads src2, grWrites := [t] }
  | .mpyllu t s1 src2 => { grReads := s1 :: srcReads src2, grWrites := [t] }
  | .mpylh t s1 src2 => { grReads := s1 :: srcReads src2, grWrites := [t] }
  | .mpylhu t s1 src2 => { grReads := s1 :: srcReads src2, grWrites := [t] }
  | .mpyhh t s1 src2 => { grReads := s1 :: srcReads src2, grWrites := [t] }
  | .mpyhhu t s1 src2 => { grReads := s1 :: srcReads src2, grWrites := [t] }
  | .mpyl t s1 src2 => { grReads := s1 :: srcReads src2, grWrites := [t] }
  | .mpylu t s1 src2 => { grReads := s1 :: srcReads src2, grWrites := [t] }
  | .mpyh t s1 src2 => { grReads := s1 :: srcReads src2, grWrites := [t] }
  | .mpyhu t s1 src2 => { grReads := s1 :: srcReads src2, grWrites := [t] }
  | .mpyhs t s1 src2 => { grReads := s1 :: srcReads src2, grWrites := [t] }
  | .reserved0001100 => ropAccess 0b0001100#7
  | .reserved0001101 => ropAccess 0b0001101#7
  | .reserved0001110 => ropAccess 0b0001110#7
  | .reserved0001111 => ropAccess 0b0001111#7
  | .reserved0010000 => ropAccess 0b0010000#7
  | .ldw t _ s1 => { grReads := [s1], grWrites := [t], memory := true }
  | .ldh t _ s1 => { grReads := [s1], grWrites := [t], memory := true }
  | .ldhu t _ s1 => { grReads := [s1], grWrites := [t], memory := true }
  | .ldb t _ s1 => { grReads := [s1], grWrites := [t], memory := true }
  | .ldbu t _ s1 => { grReads := [s1], grWrites := [t], memory := true }
  | .stw off s1 s2 => { grReads := [s1, s2], memory := true, store := some ⟨s1, off, .word⟩ }
  | .sth off s1 s2 => { grReads := [s1, s2], memory := true, store := some ⟨s1, off, .half⟩ }
  | .stb off s1 s2 => { grReads := [s1, s2], memory := true, store := some ⟨s1, off, .byte⟩ }
  | .pft _ s1 => { grReads := [s1] }
  | .reserved0011010 => ropAccess 0b0011010#7
  | .reserved0011011 => ropAccess 0b0011011#7
  | .sylFollow _ => {}
  | .reserved0011101 => ropAccess 0b0011101#7
  | .reserved0011110 => ropAccess 0b0011110#7
  | .stop => {}
  | .reserved0100000 => ropAccess 0b0100000#7
  | .goto _ => { control := true }
  | .igoto => { grReads := [Params.lrIndex], control := true }
  | .call _ => { grWrites := [Params.lrIndex], control := true }
  | .icall => { grReads := [Params.lrIndex], grWrites := [Params.lrIndex], control := true }
  | .br b _ => { brReads := [b], control := true }
  | .brf b _ => { brReads := [b], control := true }
  | .ret t _ => { grReads := [t, Params.lrIndex], grWrites := [t], control := true }
  | .rfi => {}
  | .xnop _ => {}
  | .send _ => {}
  | .recv _ => {}
  | .reserved0101100 => ropAccess 0b0101100#7
  | .reserved0101101 => ropAccess 0b0101101#7
  | .reserved0101110 => ropAccess 0b0101110#7
  | .reserved0101111 => ropAccess 0b0101111#7
  | .slctf t b1 s1 src2 => { grReads := s1 :: srcReads src2, brReads := [b1], grWrites := [t] }
  | .slct t b1 s1 src2 => { grReads := s1 :: srcReads src2, brReads := [b1], grWrites := [t] }
  | .reserved1000000 => ropAccess 0b1000000#7
  | .add t s1 src2 => { grReads := s1 :: srcReads src2, grWrites := [t] }
  | .reserved1000010 => ropAccess 0b1000010#7
  | .and t s1 src2 => { grReads := s1 :: srcReads src2, grWrites := [t] }
  | .andc t s1 src2 => { grReads := s1 :: srcReads src2, grWrites := [t] }
  | .max t s1 src2 => { grReads := s1 :: srcReads src2, grWrites := [t] }
  | .maxu t s1 src2 => { grReads := s1 :: srcReads src2, grWrites := [t] }
  | .min t s1 src2 => { grReads := s1 :: srcReads src2, grWrites := [t] }
  | .minu t s1 src2 => { grReads := s1 :: srcReads src2, grWrites := [t] }
  | .or t s1 src2 => { grReads := s1 :: srcReads src2, grWrites := [t] }
  | .orc t s1 src2 => { grReads := s1 :: srcReads src2, grWrites := [t] }
  | .sh1add t s1 src2 => { grReads := s1 :: srcReads src2, grWrites := [t] }
  | .sh2add t s1 src2 => { grReads := s1 :: srcReads src2, grWrites := [t] }
  | .sh3add t s1 src2 => { grReads := s1 :: srcReads src2, grWrites := [t] }
  | .sh4add t s1 src2 => { grReads := s1 :: srcReads src2, grWrites := [t] }
  | .shl t s1 src2 => { grReads := s1 :: srcReads src2, grWrites := [t] }
  | .shr t s1 src2 => { grReads := s1 :: srcReads src2, grWrites := [t] }
  | .shru t s1 src2 => { grReads := s1 :: srcReads src2, grWrites := [t] }
  | .sub t src2 s1 => { grReads := s1 :: srcReads src2, grWrites := [t] }
  | .sxtb t s1 => { grReads := [s1], grWrites := [t] }
  | .sxth t s1 => { grReads := [s1], grWrites := [t] }
  | .zxtb t s1 => { grReads := [s1], grWrites := [t] }
  | .zxth t s1 => { grReads := [s1], grWrites := [t] }
  | .xor t s1 src2 => { grReads := s1 :: srcReads src2, grWrites := [t] }
  | .mov t s1 => { grReads := [s1], grWrites := [t] }
  | .cmpeq d s1 src2 => { grReads := s1 :: srcReads src2, grWrites := targetGrWrites d, brWrites := targetBrWrites d }
  | .cmpge d s1 src2 => { grReads := s1 :: srcReads src2, grWrites := targetGrWrites d, brWrites := targetBrWrites d }
  | .cmpgeu d s1 src2 => { grReads := s1 :: srcReads src2, grWrites := targetGrWrites d, brWrites := targetBrWrites d }
  | .cmpgt d s1 src2 => { grReads := s1 :: srcReads src2, grWrites := targetGrWrites d, brWrites := targetBrWrites d }
  | .cmpgtu d s1 src2 => { grReads := s1 :: srcReads src2, grWrites := targetGrWrites d, brWrites := targetBrWrites d }
  | .cmple d s1 src2 => { grReads := s1 :: srcReads src2, grWrites := targetGrWrites d, brWrites := targetBrWrites d }
  | .cmpleu d s1 src2 => { grReads := s1 :: srcReads src2, grWrites := targetGrWrites d, brWrites := targetBrWrites d }
  | .cmplt d s1 src2 => { grReads := s1 :: srcReads src2, grWrites := targetGrWrites d, brWrites := targetBrWrites d }
  | .cmpltu d s1 src2 => { grReads := s1 :: srcReads src2, grWrites := targetGrWrites d, brWrites := targetBrWrites d }
  | .cmpne d s1 src2 => { grReads := s1 :: srcReads src2, grWrites := targetGrWrites d, brWrites := targetBrWrites d }
  | .nandl d s1 src2 => { grReads := s1 :: srcReads src2, grWrites := targetGrWrites d, brWrites := targetBrWrites d }
  | .norl d s1 src2 => { grReads := s1 :: srcReads src2, grWrites := targetGrWrites d, brWrites := targetBrWrites d }
  | .reserved1100101 => ropAccess 0b1100101#7
  | .orl d s1 src2 => { grReads := s1 :: srcReads src2, grWrites := targetGrWrites d, brWrites := targetBrWrites d }
  | .mtb b s1 => { grReads := [s1], brWrites := [b] }
  | .andl d s1 src2 => { grReads := s1 :: srcReads src2, grWrites := targetGrWrites d, brWrites := targetBrWrites d }
  | .reserved1101001 => ropAccess 0b1101001#7
  | .reserved1101010 => ropAccess 0b1101010#7
  | .reserved1101011 => ropAccess 0b1101011#7
  | .reserved1101100 => ropAccess 0b1101100#7
  | .reserved1101101 => ropAccess 0b1101101#7
  | .reserved1101110 => ropAccess 0b1101110#7
  | .reserved1101111 => ropAccess 0b1101111#7
  | .divs t b b1 s1 s2 => { grReads := [s1, s2], brReads := [b1], grWrites := [t], brWrites := [b] }
  | .addcg t b b1 s1 s2 => { grReads := [s1, s2], brReads := [b1], grWrites := [t], brWrites := [b] }

end Sys2Proof.Machine
end

