-- ==== Sys2Proof/Machine/Flags.lean ====
section
/-! DEFINITION. The one-bit conditions. BR registers are the only condition state of the machine (spec/10_state.md
R24): the truth values of type II (spec/40_alu.md R125 to R139), MTB's bit (R140), and the carries of ADDCG and DIVS
(R141, R142). -/

namespace Sys2Proof.Machine

/-- `zext_1(c)`: the 32-bit value 1 or 0 (40_alu.md R125). -/
def truthWord (c : Bool) : Word := if c then 1 else 0

/-- The truth value written to the target the form names (40_alu.md R125). -/
def State.writeTruth (s : State) (d : Target) (c : Bool) : State :=
  match d with
  | .gr t => s.writeGr t (truthWord c)
  | .br b => s.writeBr b c

/-- Type II: one truth value from `r[s1]` and `src2` (40_alu.md R125). -/
def truthOp (d : Target) (s1 : GR) (a : Src2) (c : Word → Word → Bool) (s : State) : Result :=
  reading (s1 :: srcReads a) [] s (.next ((s.writeTruth d (c (s.readGr s1) (s.src2 a))).advance))

/-- R126. -/
def cmpeqFlag (a b : Word) : Bool := a == b
/-- R127. -/
def cmpgeFlag (a b : Word) : Bool := decide (b.toInt ≤ a.toInt)
/-- R128. -/
def cmpgeuFlag (a b : Word) : Bool := decide (b.toNat ≤ a.toNat)
/-- R129. -/
def cmpgtFlag (a b : Word) : Bool := decide (b.toInt < a.toInt)
/-- R130. -/
def cmpgtuFlag (a b : Word) : Bool := decide (b.toNat < a.toNat)
/-- R131. -/
def cmpleFlag (a b : Word) : Bool := decide (a.toInt ≤ b.toInt)
/-- R132. -/
def cmpleuFlag (a b : Word) : Bool := decide (a.toNat ≤ b.toNat)
/-- R133. -/
def cmpltFlag (a b : Word) : Bool := decide (a.toInt < b.toInt)
/-- R134. -/
def cmpltuFlag (a b : Word) : Bool := decide (a.toNat < b.toNat)
/-- R135. -/
def cmpneFlag (a b : Word) : Bool := a != b

/-- An operand of a logical operation counts as true when it is not zero (40_alu.md R136). -/
def truth (v : Word) : Bool := v != 0
/-- R136. -/
def nandlFlag (a b : Word) : Bool := !(truth a && truth b)
/-- R137. -/
def norlFlag (a b : Word) : Bool := !(truth a || truth b)
/-- R138. -/
def orlFlag (a b : Word) : Bool := truth a || truth b
/-- R139. -/
def andlFlag (a b : Word) : Bool := truth a && truth b

/-- MTB: not zero (40_alu.md R140). -/
def mtbFlag (a : Word) : Bool := truth a

/-- The 33-bit sum of ADDCG (40_alu.md R141). -/
def addcgSum (cin : Bool) (a b : Word) : Nat := a.toNat + b.toNat + cin.toNat
/-- `sum[32]` (40_alu.md R141). -/
def addcgCarry (cin : Bool) (a b : Word) : Bool := (addcgSum cin a b).testBit 32

/-- The bit DIVS shifts out: `r[s1][31]` (40_alu.md R142). -/
def divsCarry (_cin : Bool) (a _b : Word) : Bool := a.getLsbD 31

end Sys2Proof.Machine
end

