-- ==== Sys2Proof/Machine/Alu.lean ====
section
/-! DEFINITION. The ALU family (spec/40_alu.md): what each operation writes, from the values before the bundle. -/

namespace Sys2Proof.Machine

/-- SLCTF (R144): `r[s1]` on a false condition. -/
def execSlctf (t : GR) (b1 : BR) (s1 : GR) (src2 : Src2) (s : State) : Result :=
  selectOp t b1 s1 src2 (fun c a b => if c then b else a) s

/-- SLCT (R143): `r[s1]` on a true condition. -/
def execSlct (t : GR) (b1 : BR) (s1 : GR) (src2 : Src2) (s : State) : Result :=
  selectOp t b1 s1 src2 (fun c a b => if c then a else b) s

/-- ADD (R102): `r[t] <- r[s1] + src2`. -/
def execAdd (t s1 : GR) (src2 : Src2) (s : State) : Result :=
  binaryOp t s1 src2 (fun a b => a + b) s

/-- AND (R103): `r[t] <- r[s1] & src2`. -/
def execAnd (t s1 : GR) (src2 : Src2) (s : State) : Result :=
  binaryOp t s1 src2 (fun a b => a &&& b) s

/-- ANDC (R104): `r[t] <- (~r[s1]) & src2`. -/
def execAndc (t s1 : GR) (src2 : Src2) (s : State) : Result :=
  binaryOp t s1 src2 (fun a b => ~~~a &&& b) s

/-- MAX (R105): the larger of `r[s1]` and `src2`, signed. -/
def execMax (t s1 : GR) (src2 : Src2) (s : State) : Result :=
  binaryOp t s1 src2 (fun a b => if b.toInt ≤ a.toInt then a else b) s

/-- MAXU (R106): the larger, unsigned. -/
def execMaxu (t s1 : GR) (src2 : Src2) (s : State) : Result :=
  binaryOp t s1 src2 (fun a b => if b.toNat ≤ a.toNat then a else b) s

/-- MIN (R107): the smaller, signed. -/
def execMin (t s1 : GR) (src2 : Src2) (s : State) : Result :=
  binaryOp t s1 src2 (fun a b => if a.toInt ≤ b.toInt then a else b) s

/-- MINU (R108): the smaller, unsigned. -/
def execMinu (t s1 : GR) (src2 : Src2) (s : State) : Result :=
  binaryOp t s1 src2 (fun a b => if a.toNat ≤ b.toNat then a else b) s

/-- OR (R109): `r[t] <- r[s1] | src2`. -/
def execOr (t s1 : GR) (src2 : Src2) (s : State) : Result :=
  binaryOp t s1 src2 (fun a b => a ||| b) s

/-- ORC (R110): `r[t] <- (~r[s1]) | src2`. -/
def execOrc (t s1 : GR) (src2 : Src2) (s : State) : Result :=
  binaryOp t s1 src2 (fun a b => ~~~a ||| b) s

/-- SH1ADD (R111): `r[t] <- (r[s1] << 1) + src2`. -/
def execSh1add (t s1 : GR) (src2 : Src2) (s : State) : Result :=
  binaryOp t s1 src2 (fun a b => (a <<< 1) + b) s

/-- SH2ADD (R112): `r[t] <- (r[s1] << 2) + src2`. -/
def execSh2add (t s1 : GR) (src2 : Src2) (s : State) : Result :=
  binaryOp t s1 src2 (fun a b => (a <<< 2) + b) s

/-- SH3ADD (R113): `r[t] <- (r[s1] << 3) + src2`. -/
def execSh3add (t s1 : GR) (src2 : Src2) (s : State) : Result :=
  binaryOp t s1 src2 (fun a b => (a <<< 3) + b) s

/-- SH4ADD (R114): `r[t] <- (r[s1] << 4) + src2`. -/
def execSh4add (t s1 : GR) (src2 : Src2) (s : State) : Result :=
  binaryOp t s1 src2 (fun a b => (a <<< 4) + b) s

/-- SHL (R115): zeros enter at bit 0. -/
def execShl (t s1 : GR) (src2 : Src2) (s : State) : Result :=
  shiftOp .shl t s1 src2 (fun a n => a <<< n) s

/-- SHR (R116): copies of bit 31 enter at the top. -/
def execShr (t s1 : GR) (src2 : Src2) (s : State) : Result :=
  shiftOp .shr t s1 src2 (fun a n => a.sshiftRight n) s

/-- SHRU (R117): zeros enter at the top. -/
def execShru (t s1 : GR) (src2 : Src2) (s : State) : Result :=
  shiftOp .shru t s1 src2 (fun a n => a >>> n) s

/-- SUB (R118): `r[t] <- src2 - r[s1]`, the first written operand minus the second. -/
def execSub (t : GR) (src2 : Src2) (s1 : GR) (s : State) : Result :=
  binaryOp t s1 src2 (fun a b => b - a) s

/-- SXTB (R119). -/
def execSxtb (t s1 : GR) (s : State) : Result := unaryOp t s1 sext8 s

/-- SXTH (R120). -/
def execSxth (t s1 : GR) (s : State) : Result := unaryOp t s1 sext16 s

/-- ZXTB (R121). -/
def execZxtb (t s1 : GR) (s : State) : Result := unaryOp t s1 zext8 s

/-- ZXTH (R122). -/
def execZxth (t s1 : GR) (s : State) : Result := unaryOp t s1 zext16 s

/-- XOR (R123): `r[t] <- r[s1] ^ src2`. -/
def execXor (t s1 : GR) (src2 : Src2) (s : State) : Result :=
  binaryOp t s1 src2 (fun a b => a ^^^ b) s

/-- MOV (R124). -/
def execMov (t s1 : GR) (s : State) : Result := unaryOp t s1 id s

/-- CMPEQ (R126). -/
def execCmpeq (d : Target) (s1 : GR) (src2 : Src2) (s : State) : Result :=
  truthOp d s1 src2 cmpeqFlag s

/-- CMPGE (R127). -/
def execCmpge (d : Target) (s1 : GR) (src2 : Src2) (s : State) : Result :=
  truthOp d s1 src2 cmpgeFlag s

/-- CMPGEU (R128). -/
def execCmpgeu (d : Target) (s1 : GR) (src2 : Src2) (s : State) : Result :=
  truthOp d s1 src2 cmpgeuFlag s

/-- CMPGT (R129). -/
def execCmpgt (d : Target) (s1 : GR) (src2 : Src2) (s : State) : Result :=
  truthOp d s1 src2 cmpgtFlag s

/-- CMPGTU (R130). -/
def execCmpgtu (d : Target) (s1 : GR) (src2 : Src2) (s : State) : Result :=
  truthOp d s1 src2 cmpgtuFlag s

/-- CMPLE (R131). -/
def execCmple (d : Target) (s1 : GR) (src2 : Src2) (s : State) : Result :=
  truthOp d s1 src2 cmpleFlag s

/-- CMPLEU (R132). -/
def execCmpleu (d : Target) (s1 : GR) (src2 : Src2) (s : State) : Result :=
  truthOp d s1 src2 cmpleuFlag s

/-- CMPLT (R133). -/
def execCmplt (d : Target) (s1 : GR) (src2 : Src2) (s : State) : Result :=
  truthOp d s1 src2 cmpltFlag s

/-- CMPLTU (R134). -/
def execCmpltu (d : Target) (s1 : GR) (src2 : Src2) (s : State) : Result :=
  truthOp d s1 src2 cmpltuFlag s

/-- CMPNE (R135). -/
def execCmpne (d : Target) (s1 : GR) (src2 : Src2) (s : State) : Result :=
  truthOp d s1 src2 cmpneFlag s

/-- NANDL (R136). -/
def execNandl (d : Target) (s1 : GR) (src2 : Src2) (s : State) : Result :=
  truthOp d s1 src2 nandlFlag s

/-- NORL (R137). -/
def execNorl (d : Target) (s1 : GR) (src2 : Src2) (s : State) : Result :=
  truthOp d s1 src2 norlFlag s

/-- ORL (R138). -/
def execOrl (d : Target) (s1 : GR) (src2 : Src2) (s : State) : Result :=
  truthOp d s1 src2 orlFlag s

/-- MTB (R140): `b[b] <- bool(r[s1] != 0)`. -/
def execMtb (b : BR) (s1 : GR) (s : State) : Result :=
  reading [s1] [] s (.next ((s.writeBr b (mtbFlag (s.readGr s1))).advance))

/-- ANDL (R139). -/
def execAndl (d : Target) (s1 : GR) (src2 : Src2) (s : State) : Result :=
  truthOp d s1 src2 andlFlag s

/-- The non-restoring division step: the carry enters at bit 0, the old bit 31 chooses add or subtract (R142). -/
def divsValue (cin : Bool) (a b : Word) : Word :=
  if a.getLsbD 31 then (a <<< 1 ||| truthWord cin) + b else (a <<< 1 ||| truthWord cin) - b

/-- DIVS (R142). -/
def execDivs (t : GR) (b b1 : BR) (s1 s2 : GR) (s : State) : Result :=
  carryOp t b b1 s1 s2 divsValue divsCarry s

/-- The low 32 bits of the 33-bit sum (R141). -/
def addcgValue (cin : Bool) (a b : Word) : Word := BitVec.ofNat _ (addcgSum cin a b)

/-- ADDCG (R141). -/
def execAddcg (t : GR) (b b1 : BR) (s1 s2 : GR) (s : State) : Result :=
  carryOp t b b1 s1 s2 addcgValue addcgCarry s

end Sys2Proof.Machine
end

