-- ==== Sys2Proof/Machine/Ctrl.lean ====
section
/-! DEFINITION. The CTRL family (spec/42_ctrl.md): each meaning ends its bundle with the pc it gives. -/

namespace Sys2Proof.Machine

/-- GOTO (R171): `pc <- pc + off`. -/
def execGoto (off : Int) (s : State) : Result := .next (s.jump (s.relTarget off))

/-- IGOTO (R172): `pc <- unsigned(lr)`. -/
def execIgoto (s : State) : Result := reading [Params.lrIndex] [] s (.next (s.jump s.indirectTarget))

/-- CALL (R173): `lr <- (pc + 1) mod 2^32; pc <- pc + off`. -/
def execCall (off : Int) (s : State) : Result := .next ((s.writeLr s.linkValue).jump (s.relTarget off))

/-- ICALL (R174): the target is the link register's value before the bundle. -/
def execIcall (s : State) : Result :=
  reading [Params.lrIndex] [] s (.next ((s.writeLr s.linkValue).jump s.indirectTarget))

/-- BR (R175): taken when the BR is 1. -/
def execBr (b : BR) (off : Int) (s : State) : Result := branchOp b off (fun c => c) s

/-- BRF (R176): taken when the BR is 0. -/
def execBrf (b : BR) (off : Int) (s : State) : Result := branchOp b off (fun c => !c) s

/-- RETURN (R177): `r[t] <- r[t] + frame; pc <- unsigned(lr)`, both from the values before the bundle. -/
def execRet (t : GR) (frame : Int) (s : State) : Result :=
  reading [t, Params.lrIndex] [] s
    (.next ((s.writeGr t (s.readGr t + BitVec.ofInt _ frame)).jump s.indirectTarget))

/-- RFI (R178): the spec describes nothing it could return from. -/
def execRfi (s : State) : Result := unsupportedOp .rfi s

/-- XNOP (R179): it only spends time, and the model has no time. -/
def execXnop (_n : Option Nat) (s : State) : Result := .next s.advance

end Sys2Proof.Machine
end

