-- ==== Sys2Proof/Machine/Mem.lean ====
section
/-! DEFINITION. The MEM family (spec/43_mem.md). -/

namespace Sys2Proof.Machine

/-- LDW (R190). -/
def execLdw (t : GR) (off : Word) (s1 : GR) (s : State) : Result := loadOp .word id t off s1 s

/-- LDH (R191). -/
def execLdh (t : GR) (off : Word) (s1 : GR) (s : State) : Result := loadOp .half sext16 t off s1 s

/-- LDHU (R192). -/
def execLdhu (t : GR) (off : Word) (s1 : GR) (s : State) : Result := loadOp .half zext16 t off s1 s

/-- LDB (R193). -/
def execLdb (t : GR) (off : Word) (s1 : GR) (s : State) : Result := loadOp .byte sext8 t off s1 s

/-- LDBU (R194). -/
def execLdbu (t : GR) (off : Word) (s1 : GR) (s : State) : Result := loadOp .byte zext8 t off s1 s

/-- STW (R195). -/
def execStw (off : Word) (s1 s2 : GR) (s : State) : Result := storeOp .word off s1 s2 s

/-- STH (R196). -/
def execSth (off : Word) (s1 s2 : GR) (s : State) : Result := storeOp .half off s1 s2 s

/-- STB (R197). -/
def execStb (off : Word) (s1 s2 : GR) (s : State) : Result := storeOp .byte off s1 s2 s

/-- PFT (R198): the base register is read, the address is not used. -/
def execPft (_off : Word) (s1 : GR) (s : State) : Result := reading [s1] [] s (.next s.advance)

end Sys2Proof.Machine
end

