-- ==== Sys2Proof/Machine/Misc.lean ====
section
/-! DEFINITION. The miscellaneous operations (spec/44_misc.md) and the 24 reserved codes (spec/30_encoding.md R75). A
reserved code and SYL_FOLLOW are never reached by the evaluation of a bundle, whose decoder raises their fault with the
slot they stand in; the meanings here are those of the syllable alone in slot 0. -/

namespace Sys2Proof.Machine

/-- STOP (R210): the rest of its bundle commits, the pc takes its normal next value, then the machine is halted. -/
def execStop (s : State) : Result := .next { s.advance with halted := true }

/-- NOP (R211). -/
def execNop (s : State) : Result := .next s.advance

/-- SEND (R212): `path` is "unsupported in r-VEX". It always faults and reads no register (30_encoding.md Table 30-C, row
IX). -/
def execSend (s : State) (_operands : Option (GR × Path) := none) : Result := unsupportedOp .send s

/-- RECV (R213): it always faults and writes no register (30_encoding.md Table 30-C, row XVIII). -/
def execRecv (s : State) (_operands : Option (GR × Path) := none) : Result := unsupportedOp .recv s

/-- SYL_FOLLOW (R214) with no long immediate before it. -/
def execSylFollow (_payload : BitVec 23) (s : State) : Result := .next (s.raise (.orphanFollow 0))

/-- Reserved code `0001100`, "MUL r-OP" (R162). -/
def execReserved0001100 (s : State) : Result := reservedOp 0b0001100#7 s

/-- Reserved code `0001101`, "MUL r-OP" (R162). -/
def execReserved0001101 (s : State) : Result := reservedOp 0b0001101#7 s

/-- Reserved code `0001110`, "MUL r-OP" (R162). -/
def execReserved0001110 (s : State) : Result := reservedOp 0b0001110#7 s

/-- Reserved code `0001111`, "MUL r-OP" (R162). -/
def execReserved0001111 (s : State) : Result := reservedOp 0b0001111#7 s

/-- Reserved code `0010000`, "MEM r-OP" (R199). -/
def execReserved0010000 (s : State) : Result := reservedOp 0b0010000#7 s

/-- Reserved code `0011010`, "MEM r-OP" (R199). -/
def execReserved0011010 (s : State) : Result := reservedOp 0b0011010#7 s

/-- Reserved code `0011011`, "MEM r-OP" (R199). -/
def execReserved0011011 (s : State) : Result := reservedOp 0b0011011#7 s

/-- Reserved code `0011101`, "MEM r-OP" (R199). -/
def execReserved0011101 (s : State) : Result := reservedOp 0b0011101#7 s

/-- Reserved code `0011110`, "MEM r-OP" (R199). -/
def execReserved0011110 (s : State) : Result := reservedOp 0b0011110#7 s

/-- Reserved code `0100000`, "CTRL r-OP" (R180). -/
def execReserved0100000 (s : State) : Result := reservedOp 0b0100000#7 s

/-- Reserved code `0101100`, "CTRL r-OP" (R180). -/
def execReserved0101100 (s : State) : Result := reservedOp 0b0101100#7 s

/-- Reserved code `0101101`, "CTRL r-OP" (R180). -/
def execReserved0101101 (s : State) : Result := reservedOp 0b0101101#7 s

/-- Reserved code `0101110`, "CTRL r-OP" (R180). -/
def execReserved0101110 (s : State) : Result := reservedOp 0b0101110#7 s

/-- Reserved code `0101111`, "CTRL r-OP" (R180). -/
def execReserved0101111 (s : State) : Result := reservedOp 0b0101111#7 s

/-- Reserved code `1000000`, "ALU r-OP" (R145). -/
def execReserved1000000 (s : State) : Result := reservedOp 0b1000000#7 s

/-- Reserved code `1000010`, "ALU r-OP" (R145). -/
def execReserved1000010 (s : State) : Result := reservedOp 0b1000010#7 s

/-- Reserved code `1100101`, "ALU r-OP" (R145). -/
def execReserved1100101 (s : State) : Result := reservedOp 0b1100101#7 s

/-- Reserved code `1101001`, "ALU r-OP" (R145). -/
def execReserved1101001 (s : State) : Result := reservedOp 0b1101001#7 s

/-- Reserved code `1101010`, "ALU r-OP" (R145). -/
def execReserved1101010 (s : State) : Result := reservedOp 0b1101010#7 s

/-- Reserved code `1101011`, "ALU r-OP" (R145). -/
def execReserved1101011 (s : State) : Result := reservedOp 0b1101011#7 s

/-- Reserved code `1101100`, "ALU r-OP" (R145). -/
def execReserved1101100 (s : State) : Result := reservedOp 0b1101100#7 s

/-- Reserved code `1101101`, "ALU r-OP" (R145). -/
def execReserved1101101 (s : State) : Result := reservedOp 0b1101101#7 s

/-- Reserved code `1101110`, "ALU r-OP" (R145). -/
def execReserved1101110 (s : State) : Result := reservedOp 0b1101110#7 s

/-- Reserved code `1101111`, "ALU r-OP" (R145). -/
def execReserved1101111 (s : State) : Result := reservedOp 0b1101111#7 s

end Sys2Proof.Machine
end

