-- ==== Sys2Proof/Machine/Mul.lean ====
section
/-! DEFINITION. The MUL family (spec/41_mul.md): the product is formed without loss and its low 32 bits are kept
(R150). -/

namespace Sys2Proof.Machine

/-- The low 32 bits of the product of two integers (R150). -/
def signedProduct (a b : Int) : Word := BitVec.ofInt _ (a * b)

/-- The low 32 bits of the product of two naturals (R150). -/
def unsignedProduct (a b : Nat) : Word := BitVec.ofNat _ (a * b)

/-- MPYLL (R151): "Multiply signed low 16 x low 16 bits". -/
def execMpyll (t s1 : GR) (src2 : Src2) (s : State) : Result :=
  binaryOp t s1 src2 (fun a b => signedProduct (lo a).toInt (lo b).toInt) s

/-- MPYLLU (R152): "Multiply unsigned low 16 x low 16 bits". -/
def execMpyllu (t s1 : GR) (src2 : Src2) (s : State) : Result :=
  binaryOp t s1 src2 (fun a b => unsignedProduct (lo a).toNat (lo b).toNat) s

/-- MPYLH (R153): "Multiply signed low 16 (`s1`) x high 16 (`s2`) bits". -/
def execMpylh (t s1 : GR) (src2 : Src2) (s : State) : Result :=
  binaryOp t s1 src2 (fun a b => signedProduct (lo a).toInt (hi b).toInt) s

/-- MPYLHU (R154): "Multiply unsigned low 16 (`s1`) x high 16 (`s2`) bits". -/
def execMpylhu (t s1 : GR) (src2 : Src2) (s : State) : Result :=
  binaryOp t s1 src2 (fun a b => unsignedProduct (lo a).toNat (hi b).toNat) s

/-- MPYHH (R155): "Multiply signed high 16 x high 16 bits". -/
def execMpyhh (t s1 : GR) (src2 : Src2) (s : State) : Result :=
  binaryOp t s1 src2 (fun a b => signedProduct (hi a).toInt (hi b).toInt) s

/-- MPYHHU (R156): "Multiply unsigned high 16 x high 16 bits". -/
def execMpyhhu (t s1 : GR) (src2 : Src2) (s : State) : Result :=
  binaryOp t s1 src2 (fun a b => unsignedProduct (hi a).toNat (hi b).toNat) s

/-- MPYL (R157): "Multiply signed low 16 (`s2`) x 32 (`s1`) bits". -/
def execMpyl (t s1 : GR) (src2 : Src2) (s : State) : Result :=
  binaryOp t s1 src2 (fun a b => signedProduct a.toInt (lo b).toInt) s

/-- MPYLU (R158): "Multiply unsigned low 16 (`s2`) x 32 (`s1`) bits". -/
def execMpylu (t s1 : GR) (src2 : Src2) (s : State) : Result :=
  binaryOp t s1 src2 (fun a b => unsignedProduct a.toNat (lo b).toNat) s

/-- MPYH (R159): "Multiply signed high 16 (`s2`) x 32 (`s1`) bits". -/
def execMpyh (t s1 : GR) (src2 : Src2) (s : State) : Result :=
  binaryOp t s1 src2 (fun a b => signedProduct a.toInt (hi b).toInt) s

/-- MPYHU (R160): "Multiply unsigned high 16 (`s2`) x 32 (`s1`) bits". -/
def execMpyhu (t s1 : GR) (src2 : Src2) (s : State) : Result :=
  binaryOp t s1 src2 (fun a b => unsignedProduct a.toNat (hi b).toNat) s

/-- MPYHS (R161): "Multiply signed high 16 (`s2`) x 32 (`s1`) bits, shift left 16". -/
def execMpyhs (t s1 : GR) (src2 : Src2) (s : State) : Result :=
  binaryOp t s1 src2 (fun a b => signedProduct a.toInt (hi b).toInt <<< 16) s

end Sys2Proof.Machine
end

