-- ==== Sys2Proof/Machine/Dispatch.lean ====
section
/-! DEFINITION. One arm per operation: what the operation does as the only operation of its bundle, in slot 0, the
other slots NOP. The bundle (Sys2Proof/Machine/Bundle.lean) takes each operation's writes from these outcomes. -/

namespace Sys2Proof.Machine

def exec (i : Instr) (s : State) : Host.Outcome State Fault Refusal :=
  match i with
  | .nop => Sys2Proof.Machine.execNop s
  | .mpyll t s1 src2 => Sys2Proof.Machine.execMpyll t s1 src2 s
  | .mpyllu t s1 src2 => Sys2Proof.Machine.execMpyllu t s1 src2 s
  | .mpylh t s1 src2 => Sys2Proof.Machine.execMpylh t s1 src2 s
  | .mpylhu t s1 src2 => Sys2Proof.Machine.execMpylhu t s1 src2 s
  | .mpyhh t s1 src2 => Sys2Proof.Machine.execMpyhh t s1 src2 s
  | .mpyhhu t s1 src2 => Sys2Proof.Machine.execMpyhhu t s1 src2 s
  | .mpyl t s1 src2 => Sys2Proof.Machine.execMpyl t s1 src2 s
  | .mpylu t s1 src2 => Sys2Proof.Machine.execMpylu t s1 src2 s
  | .mpyh t s1 src2 => Sys2Proof.Machine.execMpyh t s1 src2 s
  | .mpyhu t s1 src2 => Sys2Proof.Machine.execMpyhu t s1 src2 s
  | .mpyhs t s1 src2 => Sys2Proof.Machine.execMpyhs t s1 src2 s
  | .reserved0001100 => Sys2Proof.Machine.execReserved0001100 s
  | .reserved0001101 => Sys2Proof.Machine.execReserved0001101 s
  | .reserved0001110 => Sys2Proof.Machine.execReserved0001110 s
  | .reserved0001111 => Sys2Proof.Machine.execReserved0001111 s
  | .reserved0010000 => Sys2Proof.Machine.execReserved0010000 s
  | .ldw t off s1 => Sys2Proof.Machine.execLdw t off s1 s
  | .ldh t off s1 => Sys2Proof.Machine.execLdh t off s1 s
  | .ldhu t off s1 => Sys2Proof.Machine.execLdhu t off s1 s
  | .ldb t off s1 => Sys2Proof.Machine.execLdb t off s1 s
  | .ldbu t off s1 => Sys2Proof.Machine.execLdbu t off s1 s
  | .stw off s1 s2 => Sys2Proof.Machine.execStw off s1 s2 s
  | .sth off s1 s2 => Sys2Proof.Machine.execSth off s1 s2 s
  | .stb off s1 s2 => Sys2Proof.Machine.execStb off s1 s2 s
  | .pft off s1 => Sys2Proof.Machine.execPft off s1 s
  | .reserved0011010 => Sys2Proof.Machine.execReserved0011010 s
  | .reserved0011011 => Sys2Proof.Machine.execReserved0011011 s
  | .sylFollow payload => Sys2Proof.Machine.execSylFollow payload s
  | .reserved0011101 => Sys2Proof.Machine.execReserved0011101 s
  | .reserved0011110 => Sys2Proof.Machine.execReserved0011110 s
  | .stop => Sys2Proof.Machine.execStop s
  | .reserved0100000 => Sys2Proof.Machine.execReserved0100000 s
  | .goto off => Sys2Proof.Machine.execGoto off s
  | .igoto => Sys2Proof.Machine.execIgoto s
  | .call off => Sys2Proof.Machine.execCall off s
  | .icall => Sys2Proof.Machine.execIcall s
  | .br b off => Sys2Proof.Machine.execBr b off s
  | .brf b off => Sys2Proof.Machine.execBrf b off s
  | .ret t frame => Sys2Proof.Machine.execRet t frame s
  | .rfi => Sys2Proof.Machine.execRfi s
  | .xnop n => Sys2Proof.Machine.execXnop n s
  | .send operands => Sys2Proof.Machine.execSend s operands
  | .recv operands => Sys2Proof.Machine.execRecv s operands
  | .reserved0101100 => Sys2Proof.Machine.execReserved0101100 s
  | .reserved0101101 => Sys2Proof.Machine.execReserved0101101 s
  | .reserved0101110 => Sys2Proof.Machine.execReserved0101110 s
  | .reserved0101111 => Sys2Proof.Machine.execReserved0101111 s
  | .slctf t b1 s1 src2 => Sys2Proof.Machine.execSlctf t b1 s1 src2 s
  | .slct t b1 s1 src2 => Sys2Proof.Machine.execSlct t b1 s1 src2 s
  | .reserved1000000 => Sys2Proof.Machine.execReserved1000000 s
  | .add t s1 src2 => Sys2Proof.Machine.execAdd t s1 src2 s
  | .reserved1000010 => Sys2Proof.Machine.execReserved1000010 s
  | .and t s1 src2 => Sys2Proof.Machine.execAnd t s1 src2 s
  | .andc t s1 src2 => Sys2Proof.Machine.execAndc t s1 src2 s
  | .max t s1 src2 => Sys2Proof.Machine.execMax t s1 src2 s
  | .maxu t s1 src2 => Sys2Proof.Machine.execMaxu t s1 src2 s
  | .min t s1 src2 => Sys2Proof.Machine.execMin t s1 src2 s
  | .minu t s1 src2 => Sys2Proof.Machine.execMinu t s1 src2 s
  | .or t s1 src2 => Sys2Proof.Machine.execOr t s1 src2 s
  | .orc t s1 src2 => Sys2Proof.Machine.execOrc t s1 src2 s
  | .sh1add t s1 src2 => Sys2Proof.Machine.execSh1add t s1 src2 s
  | .sh2add t s1 src2 => Sys2Proof.Machine.execSh2add t s1 src2 s
  | .sh3add t s1 src2 => Sys2Proof.Machine.execSh3add t s1 src2 s
  | .sh4add t s1 src2 => Sys2Proof.Machine.execSh4add t s1 src2 s
  | .shl t s1 src2 => Sys2Proof.Machine.execShl t s1 src2 s
  | .shr t s1 src2 => Sys2Proof.Machine.execShr t s1 src2 s
  | .shru t s1 src2 => Sys2Proof.Machine.execShru t s1 src2 s
  | .sub t src2 s1 => Sys2Proof.Machine.execSub t src2 s1 s
  | .sxtb t s1 => Sys2Proof.Machine.execSxtb t s1 s
  | .sxth t s1 => Sys2Proof.Machine.execSxth t s1 s
  | .zxtb t s1 => Sys2Proof.Machine.execZxtb t s1 s
  | .zxth t s1 => Sys2Proof.Machine.execZxth t s1 s
  | .xor t s1 src2 => Sys2Proof.Machine.execXor t s1 src2 s
  | .mov t s1 => Sys2Proof.Machine.execMov t s1 s
  | .cmpeq d s1 src2 => Sys2Proof.Machine.execCmpeq d s1 src2 s
  | .cmpge d s1 src2 => Sys2Proof.Machine.execCmpge d s1 src2 s
  | .cmpgeu d s1 src2 => Sys2Proof.Machine.execCmpgeu d s1 src2 s
  | .cmpgt d s1 src2 => Sys2Proof.Machine.execCmpgt d s1 src2 s
  | .cmpgtu d s1 src2 => Sys2Proof.Machine.execCmpgtu d s1 src2 s
  | .cmple d s1 src2 => Sys2Proof.Machine.execCmple d s1 src2 s
  | .cmpleu d s1 src2 => Sys2Proof.Machine.execCmpleu d s1 src2 s
  | .cmplt d s1 src2 => Sys2Proof.Machine.execCmplt d s1 src2 s
  | .cmpltu d s1 src2 => Sys2Proof.Machine.execCmpltu d s1 src2 s
  | .cmpne d s1 src2 => Sys2Proof.Machine.execCmpne d s1 src2 s
  | .nandl d s1 src2 => Sys2Proof.Machine.execNandl d s1 src2 s
  | .norl d s1 src2 => Sys2Proof.Machine.execNorl d s1 src2 s
  | .reserved1100101 => Sys2Proof.Machine.execReserved1100101 s
  | .orl d s1 src2 => Sys2Proof.Machine.execOrl d s1 src2 s
  | .mtb b s1 => Sys2Proof.Machine.execMtb b s1 s
  | .andl d s1 src2 => Sys2Proof.Machine.execAndl d s1 src2 s
  | .reserved1101001 => Sys2Proof.Machine.execReserved1101001 s
  | .reserved1101010 => Sys2Proof.Machine.execReserved1101010 s
  | .reserved1101011 => Sys2Proof.Machine.execReserved1101011 s
  | .reserved1101100 => Sys2Proof.Machine.execReserved1101100 s
  | .reserved1101101 => Sys2Proof.Machine.execReserved1101101 s
  | .reserved1101110 => Sys2Proof.Machine.execReserved1101110 s
  | .reserved1101111 => Sys2Proof.Machine.execReserved1101111 s
  | .divs t b b1 s1 s2 => Sys2Proof.Machine.execDivs t b b1 s1 s2 s
  | .addcg t b b1 s1 s2 => Sys2Proof.Machine.execAddcg t b b1 s1 s2 s

end Sys2Proof.Machine
end

