-- ==== Sys2Proof/Machine/Bundle.lean ====
section
/-! DEFINITION. The bundle (spec/30_encoding.md sections 4 and 5): fetch (R81), decode slot by slot (R73), the check
(R80), and execution, which reads everything from the state before the bundle and then performs all writes (R82). -/

namespace Sys2Proof.Machine

/-! ### Fetch -/

/-- The bundle at the pc, or `ImemRange` (R81, 60_exceptions.md R226). With `PC_UNIT` = bundle, one starts at every pc
that is not negative; with a smaller unit, DESIGN CHOICE: notes/assumptions/24.md. -/
def State.fetch (s : State) : Except Cause Bundle :=
  if s.pc < 0 ∨ s.pc % Params.pcStep ≠ 0 then .error (.imemRange s.pc)
  else
    match s.imem[(s.pc / Params.pcStep).toNat]? with
    | some b => .ok b
    | none => .error (.imemRange s.pc)

/-! ### Decode -/

/-- The fault of a rejected syllable in a slot (60_exceptions.md R225, R227, R228). -/
def rejectCause (slot : Nat) (w : Syllable) : Reject → Cause
  | .badForm => .badForm slot (Config.layout.opcode w) (Config.layout.immSw w)
  | .badLongImm => .badLongImm slot
  | .noOpcode => .illegalOpcode slot (Config.layout.opcode w)

/-- The opcode is one of the 24 reserved codes (R75). -/
def isReserved (op : BitVec 7) : Bool :=
  [0b1000000#7, 0b1000010#7, 0b1100101#7, 0b1101001#7, 0b1101010#7, 0b1101011#7, 0b1101100#7, 0b1101101#7,
    0b1101110#7, 0b1101111#7, 0b0001100#7, 0b0001101#7, 0b0001110#7, 0b0001111#7, 0b0100000#7, 0b0101100#7,
    0b0101101#7, 0b0101110#7, 0b0101111#7, 0b0010000#7, 0b0011010#7, 0b0011011#7, 0b0011101#7, 0b0011110#7].contains op

/-- The decode fault of a syllable whose opcode names no operation: `IllegalOpcode` for a reserved code
to which `ROP` gives no meaning, `OrphanFollow` for a SYL_FOLLOW that no long immediate has consumed (R73 step 2). -/
def opcodeFault (slot : Nat) (w : Syllable) : Option Cause :=
  if isReserved (Config.layout.opcode w) && (Params.rop (Config.layout.opcode w)).isNone then
    some (.illegalOpcode slot (Config.layout.opcode w))
  else if Config.layout.opcode w = 0b0011100#7 then some (.orphanFollow slot)
  else none

/-- Decoding of the slots from `slot` on; `consumed` says that the slot before took this syllable as the second half
of its long immediate, so that this slot is empty (R73, R69). The operations come out in slot order. -/
def decodeSlots (slot : Nat) (consumed : Bool) : List Syllable → Except Cause (List Instr)
  | [] => .ok []
  | w :: rest =>
    if consumed then decodeSlots (slot + 1) false rest
    else
      match opcodeFault slot w with
      | some c => .error c
      | none =>
        match Config.layout.decode w rest with
        | .error e => .error (rejectCause slot w e)
        | .ok (i, next) =>
          match decodeSlots (slot + 1) next rest with
          | .error c => .error c
          | .ok is => .ok (i :: is)

/-- The operations of a bundle (R73). -/
def decodeBundle (b : Bundle) : Except Cause (List Instr) := decodeSlots 0 false b.toList

/-! ### Check -/

/-- All GR other than `$r0.0` that the operations write (R80 c). -/
def grTargets (is : List Instr) : List GR := (is.flatMap (fun i => (access i).grWrites)).filter (fun k => !isZeroReg k)

/-- All BR that the operations write (R80 c). -/
def brTargets (is : List Instr) : List BR := is.flatMap (fun i => (access i).brWrites)

/-- The first reason for which the bundle is not well formed (R80, 60_exceptions.md R230). -/
def bundleReason (is : List Instr) : Option BundleReason :=
  if Params.maxCtrlPerBundle < is.countP (fun i => (access i).control) then some .twoBranches
  else if Params.maxMemPerBundle < is.countP (fun i => (access i).memory) then some .twoMemOps
  else if (grTargets is).Nodup ∧ (brTargets is).Nodup then none
  else some .writeConflict

/-! ### Execute -/

/-- The results of operation `i`, whose outcome from the state `s` before the bundle is `t`: the registers and the bytes
that its row of Table 30-C lists as written, with the values they have in `t` (R82). -/
def results (i : Instr) (s t : State) : List Write :=
  let dmem := match (access i).store with
    | none => []
    | some w =>
      let a := (accessAddr (s.ea w.base w.offset) w.width).toNat
      [.dmem a ((t.dmem.readBytes a w.width.bytes).getD [])]
  (access i).grWrites.map (fun k => .gr k t.gr[k]) ++ (access i).brWrites.map (fun k => .br k t.br[k]) ++ dmem

/-- A result becomes visible (R82). -/
def State.perform (s : State) : Write → State
  | .gr i v => s.writeGr i v
  | .br i c => s.writeBr i c
  | .dmem a bytes => { s with dmem := s.dmem.writeBytes a bytes }

/-- The results that become visible to the next bundle because of their age, and one bundle less for the others to wait
(70_reset_and_hazards.md R260). Their order is DESIGN CHOICE: notes/assumptions/24.md. -/
def State.land (s : State) : State :=
  { (s.inFlight.toList.headD []).foldl State.perform s with
    inFlight := Vector.ofFn fun k => s.inFlight.toList.getD (k + 1) [] }

/-- Results of this latency: with LATENCY 1 the next bundle sees them, otherwise they wait (70_reset_and_hazards.md
R260). -/
def State.schedule (s : State) (latency : Nat) (ws : List Write) : State :=
  if latency = 1 then ws.foldl State.perform s
  else { s with inFlight := Vector.ofFn fun k => if k + 2 = latency then s.inFlight[k] ++ ws else s.inFlight[k] }

/-- The outcome `t`, from the state `s` before the bundle, leaves the pc to the operation: a control transfer that is
taken. One that is not taken goes to the next bundle, which a displacement of 1 does too (42_ctrl.md R171). With
`MAX_CTRL_PER_BUNDLE` above 1, that a taken one whose target is the next bundle leaves another's target to stand is
DESIGN CHOICE, unsafe there: notes/assumptions/24.md. -/
def takes (i : Instr) (s t : State) : Bool := (access i).control && t.pc != s.advance.pc

/-- The end of operation `i`, whose outcome from the state `s` before the bundle is `t`, on `acc`: its results, the pc if
it is a taken control transfer, `halted` (R82). One that is not taken leaves the target of one that is, whatever
`MAX_CTRL_PER_BUNDLE` is. With limits above 1 the higher slot decides between two targets other than the next bundle,
and between two stores to one byte: DESIGN CHOICE, unsafe there, notes/assumptions/24.md. -/
def commit (i : Instr) (s t acc : State) : State :=
  { acc.schedule (Params.latency i).val (results i s t) with
    pc := if takes i s t then t.pc else acc.pc
    halted := acc.halted || t.halted
    draws := max acc.draws t.draws }

/-- The operations evaluated one by one, each from the state `s` before the bundle, and their results collected on
`acc`. The fault of the lowest slot cancels all writes (R82, 60_exceptions.md R220). -/
def runSlots (s : State) : List Instr → State → Result
  | [], acc => .next acc
  | i :: rest, acc =>
    match exec i s with
    | .next t =>
      match t.fault with
      | some c => .next (s.raise c)
      | none => runSlots s rest (commit i s t acc)
    | .fault r => .fault r
    | .refused r => .refused r

/-- A bundle of decoded operations: the check, then the execution, after the results that fall due; the next bundle's pc
unless a control operation gives another target (R80, R82). -/
def runBundle (is : List Instr) (s : State) : Result :=
  match bundleReason is with
  | some r => .next (s.raise (.badBundle r))
  | none => runSlots s is s.advance.land

/-- Fetch, decode, check and execute, each phase's faults before the next's (60_exceptions.md R233). -/
def State.cycle (s : State) : Result :=
  match s.fetch with
  | .error c => .next (s.raise c)
  | .ok b =>
    match decodeBundle b with
    | .error c => .next (s.raise c)
    | .ok is => runBundle is s

/-! ### Placing a bundle for fetch -/

/-- Instruction memory with bundle `b` at index `n`, padded with bundles of NOPs below it. -/
def placeAt (imem : List Bundle) (n : Nat) (b : Bundle) : List Bundle :=
  (imem ++ List.replicate (n + 1 - imem.length) (Vector.replicate _ 0)).set n b

/-- The launch of a program that holds `b` where the machine fetches next: a negative pc, which fetches nothing, is
set to 0, one inside a bundle to the bundle's own, and the machine is neither halted nor faulted
(notes/assumptions/2.md). -/
def State.placeBundle (s : State) (b : Bundle) : State :=
  { s with
    pc := max s.pc 0 / Params.pcStep * Params.pcStep
    imem := placeAt s.imem (max s.pc 0 / Params.pcStep).toNat b
    halted := false
    fault := none }

end Sys2Proof.Machine
end

