-- ==== Sys2Proof/Machine/Step.lean ====
section
/-! DEFINITION. One step of the machine is one bundle (spec/30_encoding.md R81, R82). -/

namespace Sys2Proof.Machine

/-- A halted or faulted machine has no step (R81); else the bundle at the pc is executed. -/
def step (s : State) : Host.Outcome State Fault Refusal :=
  if s.halted then .fault .halted
  else
    match s.fault with
    | some c => .fault (.faulted c)
    | none => s.cycle

/-- The state with an instruction, numbered as spec/opcode_table.json numbers its bits, stored where `step` fetches
next: it stands for the launch that names the program (70_reset_and_hazards.md R252). -/
def State.withFetchWord (s : State) (nbits w : Nat) : State := s.placeBundle (padBundle (tableSyllables nbits w))

end Sys2Proof.Machine
end

