-- ==== Sys2Proof/Machine/Launch.lean ====
section
/-! DEFINITION. The launch (spec/70_reset_and_hazards.md R252): instruction memory, data memory and its size, and
optionally initial values of registers, on top of the bare reset of spec/10_state.md Table 10-A. -/

namespace Sys2Proof.Machine

/-- The launch tuple (70_reset_and_hazards.md R252). -/
structure Launch where
  /-- The program text; its length is `IMEM_BUNDLES`. -/
  program : List Bundle := []
  /-- The named bytes of data memory. -/
  dmem : List Host.Cell := []
  /-- `DMEM_BYTES`. -/
  dmemBytes : Nat := 2 ^ 32
  /-- The named general registers. -/
  gr : List (GR × Word) := []
  /-- The named branch registers. -/
  br : List (BR × Bool) := []
  deriving DecidableEq, Repr

/-- The state a launch starts in: what it does not name stays as Table 10-A has it. -/
def State.launch (l : Launch) : State :=
  l.br.foldl (fun s p => s.writeBr p.1 p.2)
    (l.gr.foldl (fun s p => s.writeGr p.1 p.2)
      { State.bareReset with
        imem := l.program
        dmemBytes := l.dmemBytes
        dmem := l.dmem.foldl (fun m c => m.write c.1 c.2) [] })

end Sys2Proof.Machine
end

