-- ==== Sys2Proof/Safety.lean ====
section
/-! DEFINITION. What a run is, how it ends (spec/60_exceptions.md R229), and the invariant of the machine. -/

namespace Sys2Proof.Machine

/-- The run has ended with a result: halted, and no fault (R229 a). -/
def State.Final (s : State) : Prop := s.halted = true ∧ s.fault = none

/-- The run has ended in a fault (R229 b): no final state. -/
def State.Faulted (s : State) : Prop := s.fault ≠ none

/-- `t` is reached from `s` by some number of steps. -/
def Reaches (s t : State) : Prop := ∃ k, Host.Core.run Sys2Proof.core k s = .next t

/-- The program reaches its end from `s`. -/
def Halts (s : State) : Prop := ∃ t, Reaches s t ∧ t.Final

/-- No run from `s` raises a fault. -/
def NeverFaults (s : State) : Prop := ∀ t, Reaches s t → ¬ t.Faulted

/-- One byte of data memory, none when it is unwritten. -/
def State.byteAt (s : State) (a : Nat) : Option Byte := s.dmem.read a

/-- What every step keeps: data memory has its canonical form and lists no byte outside `DMEM_BASE .. DMEM_BASE +
DMEM_BYTES - 1` (20_memory.md R45), the cell of `$r0.0` holds zero (10_state.md R21), and a halted machine has not
faulted (60_exceptions.md R229). -/
def State.Inv (s : State) : Prop :=
  s.dmem.wf ∧
  (∀ c ∈ s.dmem, Params.dmemBase ≤ c.1 ∧ c.1 < Params.dmemBase + s.dmemBytes) ∧
  s.gr[0] = 0 ∧
  (s.halted = true → s.fault = none)

end Sys2Proof.Machine
end

