-- ==== Sys2Proof/Certificates/Slice0/Rules.lean ====
section
/-! DEFINITION. The words the statements are written in: the register values, the readable registers, the state an
operation leaves, the syllables of Table 30-B and what decoding them gives, and the shape of a rule for each type of
operation. They are written from spec/ directly and use the model's registers, bytes and fields only, none of its
operations. -/

namespace Sys2Proof.Rules

open Sys2Proof.Machine

/-! ### Registers (10_state.md R20 to R30) -/

/-- The value of a GR: `$r0.0` is zero (R21). -/
def gval (s : State) (i : GR) : Word := if i = 0 then 0 else s.gr[i]

/-- The value of a second source (40_alu.md R100). -/
def sval (s : State) : Src2 → Word
  | .reg i => gval s i
  | .imm v => v

/-- The GR a second source names. -/
def named : Src2 → List GR
  | .reg i => [i]
  | .imm _ => []

/-- Every register of the lists may be read: it is `$r0.0` or has been written (R30). -/
def Readable (s : State) (grs : List GR) (brs : List BR) : Prop :=
  (∀ i ∈ grs, i ≠ 0 → s.grWritten[i] = true) ∧ ∀ i ∈ brs, s.brWritten[i] = true

/-- The register an `UnwrittenRead` reports: GR before BR, the lower index first (60_exceptions.md R222, R233). -/
def FirstUnread (s : State) (grs : List GR) (brs : List BR) : ReadPlace → Prop
  | .gr i => i ∈ grs ∧ i ≠ 0 ∧ s.grWritten[i] = false ∧ ∀ j ∈ grs, j ≠ 0 → s.grWritten[j] = false → i ≤ j
  | .br i => (∀ j ∈ grs, j ≠ 0 → s.grWritten[j] = true) ∧ i ∈ brs ∧ s.brWritten[i] = false ∧
      ∀ j ∈ brs, s.brWritten[j] = false → i ≤ j
  | .dmem _ => False

/-- A fault raised: recorded, and nothing else changed (60_exceptions.md R220). -/
def raised (s : State) (c : Cause) : Result := .next { s with fault := some c }

/-- The operation reads these registers: it raises `UnwrittenRead` when one of them has not been written. -/
def ReadsThese (i : Instr) (grs : List GR) (brs : List BR) : Prop :=
  ∀ s p, FirstUnread s grs brs p → exec i s = raised s (.unwrittenRead p)

/-! ### The state an operation leaves: everything but the parts named is that of `s` -/

/-- `r[t] <- v` on the way to the next pc; `$r0.0` discards the write (R21). -/
def putGr (s : State) (t : GR) (v : Word) (pc : Int) : State :=
  if t = 0 then { s with pc := pc }
  else { s with gr := s.gr.set t v, grWritten := s.grWritten.set t true, pc := pc }

/-- `b[b] <- c` on the way to the next pc. -/
def putBr (s : State) (b : BR) (c : Bool) (pc : Int) : State :=
  { s with br := s.br.set b c, brWritten := s.brWritten.set b true, pc := pc }

/-- A truth value in its target: the number 1 or 0 in a GR, the bit in a BR (40_alu.md R125). -/
def putTruth (s : State) (d : Target) (c : Bool) : State :=
  match d with
  | .gr t => putGr s t (if c then 1 else 0) (s.pc + 1)
  | .br b => putBr s b c (s.pc + 1)

/-! ### Syllables (30_encoding.md Table 30-B, the parameter LAYOUT, notes/assumptions/8.md); `lf` is the pair of bits `L`
and `F` -/

/-- `imm_sw` = 00. -/
def regForm (op : BitVec 7) (dst src1 src2 : BitVec 6) (b : BitVec 3) (lf : BitVec 2) : Syllable :=
  op ++ 0b00#2 ++ dst ++ src1 ++ src2 ++ b ++ lf

/-- `imm_sw` = 01. -/
def shortForm (op : BitVec 7) (dst src1 : BitVec 6) (imm : BitVec 9) (lf : BitVec 2) : Syllable :=
  op ++ 0b01#2 ++ dst ++ src1 ++ imm ++ lf

/-- `imm_sw` = 10. -/
def offForm (op : BitVec 7) (dst : BitVec 6) (off : BitVec 12) (b : BitVec 3) (lf : BitVec 2) : Syllable :=
  op ++ 0b10#2 ++ dst ++ off ++ b ++ lf

/-- `imm_sw` = 11, the first syllable. -/
def longForm (op : BitVec 7) (dst src1 : BitVec 6) (imm : BitVec 9) (lf : BitVec 2) : Syllable :=
  op ++ 0b11#2 ++ dst ++ src1 ++ imm ++ lf

/-- SYL_FOLLOW. -/
def followForm (payload : BitVec 23) (lf : BitVec 2) : Syllable := 0b0011100#7 ++ payload ++ lf

/-- Only the register form is admitted, and it is this operation (Table 30-C rows IV, V, VII). -/
def OnlyRegister (op : BitVec 7) (mk : BitVec 6 → BitVec 6 → BitVec 6 → BitVec 3 → Instr) : Prop :=
  ∀ (d a c : BitVec 6) (b : BitVec 3) (v : BitVec 9) (o : BitVec 12) (lf : BitVec 2) (rest : List Syllable),
    decodeSyllable (regForm op d a c b lf) rest = .ok (mk d a c b, false) ∧
    decodeSyllable (shortForm op d a v lf) rest = .error .badForm ∧
    decodeSyllable (offForm op d o b lf) rest = .error .badForm ∧
    decodeSyllable (longForm op d a v lf) rest = .error .badForm

/-- Only the branch form is admitted, and it is this operation (Table 30-C rows VIII, XIII, XVI, XVII). -/
def OnlyBranch (op : BitVec 7) (mk : BitVec 6 → BitVec 12 → BitVec 3 → Instr) : Prop :=
  ∀ (d a c : BitVec 6) (b : BitVec 3) (v : BitVec 9) (o : BitVec 12) (lf : BitVec 2) (rest : List Syllable),
    decodeSyllable (offForm op d o b lf) rest = .ok (mk d o b, false) ∧
    decodeSyllable (regForm op d a c b lf) rest = .error .badForm ∧
    decodeSyllable (shortForm op d a v lf) rest = .error .badForm ∧
    decodeSyllable (longForm op d a v lf) rest = .error .badForm

/-- w[31:25]. -/
def opcodeBits (w : Syllable) : BitVec 7 := (w >>> 25).setWidth 7

/-- The opcode of SYL_FOLLOW (44_misc.md R214). -/
def followCode : BitVec 7 := 0b0011100

/-- The two immediate forms: the short immediate is sign-extended, the long one is payload above `imm9` and consumes
its SYL_FOLLOW, without which it is refused (R68, R69). -/
def ImmediateForms (op : BitVec 7) (mk : BitVec 6 → BitVec 6 → Word → Instr) : Prop :=
  ∀ (d a : BitVec 6) (v : BitVec 9) (p : BitVec 23) (lf lf' : BitVec 2) (rest : List Syllable),
    decodeSyllable (shortForm op d a v lf) rest = .ok (mk d a (v.signExtend 32), false) ∧
    decodeSyllable (longForm op d a v lf) (followForm p lf' :: rest) = .ok (mk d a (p ++ v), true) ∧
    ((∀ f ∈ rest.head?, opcodeBits f ≠ followCode) →
      decodeSyllable (longForm op d a v lf) rest = .error .badLongImm)

/-- Register and immediate forms, no branch form (Table 30-C rows I, II, III, VI). -/
def RegisterOrImmediate (op : BitVec 7) (mkReg : BitVec 6 → BitVec 6 → BitVec 6 → BitVec 3 → Instr)
    (mkImm : BitVec 6 → BitVec 6 → Word → Instr) : Prop :=
  (∀ (d a c : BitVec 6) (b : BitVec 3) (o : BitVec 12) (lf : BitVec 2) (rest : List Syllable),
    decodeSyllable (regForm op d a c b lf) rest = .ok (mkReg d a c b, false) ∧
    decodeSyllable (offForm op d o b lf) rest = .error .badForm) ∧
  ImmediateForms op mkImm

/-- Immediate forms only (Table 30-C rows X, XI, XII). -/
def OnlyImmediate (op : BitVec 7) (mkImm : BitVec 6 → BitVec 6 → Word → Instr) : Prop :=
  (∀ (d a c : BitVec 6) (b : BitVec 3) (o : BitVec 12) (lf : BitVec 2) (rest : List Syllable),
    decodeSyllable (regForm op d a c b lf) rest = .error .badForm ∧
    decodeSyllable (offForm op d o b lf) rest = .error .badForm) ∧
  ImmediateForms op mkImm

/-- Every value of the switch is admitted and the bits below the opcode do not matter (Table 30-C rows XIV, XIX,
XX, and the operations without an operand encoding). -/
def AnyBits (op : BitVec 7) (i : Instr) : Prop :=
  ∀ (low : BitVec 25) (rest : List Syllable), decodeSyllable (op ++ low) rest = .ok (i, false)

/-! ### The rule of one operation, by type: its result and frame, its reads, its encodings -/

/-- Types I and VI, with `mk t s1 src2`. -/
def BinaryRule (op : BitVec 7) (mk : GR → GR → Src2 → Instr) (f : Word → Word → Word) : Prop :=
  (∀ t s1 a s, Readable s (s1 :: named a) [] →
    exec (mk t s1 a) s = .next (putGr s t (f (gval s s1) (sval s a)) (s.pc + 1))) ∧
  (∀ t s1 a, ReadsThese (mk t s1 a) (s1 :: named a) []) ∧
  RegisterOrImmediate op (fun d a c _ => mk d.toFin a.toFin (.reg c.toFin)) (fun d a v => mk d.toFin a.toFin (.imm v))

/-- Type VII. -/
def UnaryRule (op : BitVec 7) (mk : GR → GR → Instr) (f : Word → Word) : Prop :=
  (∀ t s1 s, Readable s [s1] [] → exec (mk t s1) s = .next (putGr s t (f (gval s s1)) (s.pc + 1))) ∧
  (∀ t s1, ReadsThese (mk t s1) [s1] []) ∧
  OnlyRegister op (fun d a _ _ => mk d.toFin a.toFin)

/-- Type II: all four forms; at Level B `dst` = 0 in the register form means the BR target (R67). -/
def TruthRule (op : BitVec 7) (mk : Target → GR → Src2 → Instr) (c : Word → Word → Bool) : Prop :=
  (∀ d s1 a s, Readable s (s1 :: named a) [] →
    exec (mk d s1 a) s = .next (putTruth s d (c (gval s s1) (sval s a)))) ∧
  (∀ d s1 a, ReadsThese (mk d s1 a) (s1 :: named a) []) ∧
  RegisterOrImmediate op
    (fun d a c b => mk (if d = 0 then .br b.toFin else .gr d.toFin) a.toFin (.reg c.toFin))
    (fun d a v => mk (.gr d.toFin) a.toFin (.imm v))

/-- Type III: `b1` stands in the low three bits of the opcode (R66). -/
def SelectRule (op : BitVec 4) (mk : GR → BR → GR → Src2 → Instr) (f : Bool → Word → Word → Word) : Prop :=
  (∀ t b1 s1 a s, Readable s (s1 :: named a) [b1] →
    exec (mk t b1 s1 a) s = .next (putGr s t (f s.br[b1] (gval s s1) (sval s a)) (s.pc + 1))) ∧
  (∀ t b1 s1 a, ReadsThese (mk t b1 s1 a) (s1 :: named a) [b1]) ∧
  ∀ b1 : BitVec 3, RegisterOrImmediate (op ++ b1)
    (fun d a c _ => mk d.toFin b1.toFin a.toFin (.reg c.toFin)) (fun d a v => mk d.toFin b1.toFin a.toFin (.imm v))

/-- Type IV: a GR and a BR are written (R66). -/
def CarryRule (op : BitVec 4) (mk : GR → BR → BR → GR → GR → Instr) (f : Bool → Word → Word → Word)
    (c : Bool → Word → Word → Bool) : Prop :=
  (∀ t b b1 s1 s2 s, Readable s [s1, s2] [b1] →
    exec (mk t b b1 s1 s2) s =
      .next (putBr (putGr s t (f s.br[b1] (gval s s1) (gval s s2)) (s.pc + 1)) b
        (c s.br[b1] (gval s s1) (gval s s2)) (s.pc + 1))) ∧
  (∀ t b b1 s1 s2, ReadsThese (mk t b b1 s1 s2) [s1, s2] [b1]) ∧
  ∀ b1 : BitVec 3, OnlyRegister (op ++ b1) (fun d a c b => mk d.toFin b.toFin b1.toFin a.toFin c.toFin)

/-- Type VIII: taken to `pc + off` when the condition holds, else the next bundle (42_ctrl.md R170). -/
def BranchRule (op : BitVec 7) (mk : BR → Int → Instr) (taken : Bool) : Prop :=
  (∀ b off s, Readable s [] [b] →
    exec (mk b off) s = .next { s with pc := if s.br[b] = taken then s.pc + off else s.pc + 1 }) ∧
  (∀ b off, ReadsThese (mk b off) [] [b]) ∧
  OnlyBranch op (fun _ o b => mk b.toFin o.toInt)

/-! ### Memory -/

/-- The number that bytes in address order stand for, the first the most significant (20_memory.md R40). -/
def bigEndian (bs : List Byte) : Nat := bs.foldl (fun acc b => acc * 256 + b.toNat) 0

/-- The effective address (43_mem.md R200). -/
def addr (s : State) (s1 : GR) (off : Word) : Word := gval s s1 + off

/-- The `n` bytes from an address on lie in data memory, counted without wrapping (20_memory.md R41). -/
def Inside (s : State) (a : Word) (n : Nat) : Prop := a.toNat + n ≤ s.dmemBytes

/-- A load of `n` bytes: its value, its reads, its faults in their order, its encodings (43_mem.md R190 to R194). -/
def LoadRule (op : BitVec 7) (mk : GR → Word → GR → Instr) (n : Nat) (f : Nat → Word) : Prop :=
  (∀ t off s1 s (bs : List Byte), Readable s [s1] [] → (addr s s1 off).toNat % n = 0 → Inside s (addr s s1 off) n →
    bs.length = n → (∀ k, k < n → s.byteAt ((addr s s1 off).toNat + k) = bs[k]?) →
    exec (mk t off s1) s = .next (putGr s t (f (bigEndian bs)) (s.pc + 1))) ∧
  (∀ t off s1, ReadsThese (mk t off s1) [s1] []) ∧
  (∀ t off s1 s, Readable s [s1] [] → (addr s s1 off).toNat % n ≠ 0 →
    exec (mk t off s1) s = raised s (.misaligned (addr s s1 off) n)) ∧
  (∀ t off s1 s, Readable s [s1] [] → (addr s s1 off).toNat % n = 0 → ¬ Inside s (addr s s1 off) n →
    exec (mk t off s1) s = raised s (.dmemRange (addr s s1 off) n)) ∧
  (∀ t off s1 s k, Readable s [s1] [] → (addr s s1 off).toNat % n = 0 → Inside s (addr s s1 off) n → k < n →
    s.byteAt ((addr s s1 off).toNat + k) = none →
    exec (mk t off s1) s = raised s (.unwrittenRead (.dmem (addr s s1 off)))) ∧
  OnlyImmediate op (fun d a v => mk d.toFin v a.toFin)

/-- A store of `n` bytes: the bytes at the effective address, every other byte as before, nothing else but the pc
changed; its reads, its faults in their order, its encodings (43_mem.md R195 to R197). -/
def StoreRule (op : BitVec 7) (mk : Word → GR → GR → Instr) (n : Nat) : Prop :=
  (∀ off s1 s2 s, Readable s [s1, s2] [] → (addr s s1 off).toNat % n = 0 → Inside s (addr s s1 off) n →
    ∃ m : Memory, exec (mk off s1 s2) s = .next { s with dmem := m, pc := s.pc + 1 } ∧
      (∀ a, a < (addr s s1 off).toNat ∨ (addr s s1 off).toNat + n ≤ a → m.read a = s.byteAt a) ∧
      ∀ k, k < n → m.read ((addr s s1 off).toNat + k) = some ((gval s s2).extractLsb' (8 * (n - 1 - k)) 8)) ∧
  (∀ off s1 s2, ReadsThese (mk off s1 s2) [s1, s2] []) ∧
  (∀ off s1 s2 s, Readable s [s1, s2] [] → (addr s s1 off).toNat % n ≠ 0 →
    exec (mk off s1 s2) s = raised s (.misaligned (addr s s1 off) n)) ∧
  (∀ off s1 s2 s, Readable s [s1, s2] [] → (addr s s1 off).toNat % n = 0 → ¬ Inside s (addr s s1 off) n →
    exec (mk off s1 s2) s = raised s (.dmemRange (addr s s1 off) n)) ∧
  OnlyImmediate op (fun d a v => mk v a.toFin d.toFin)

/-! ### The opcode map (30_encoding.md Tables 30-C and 30-D) -/

/-- The 24 reserved codes (R75). -/
def reservedCodes : List (BitVec 7) :=
  [0b1000000, 0b1000010, 0b1100101, 0b1101001, 0b1101010, 0b1101011, 0b1101100, 0b1101101, 0b1101110, 0b1101111,
    0b0001100, 0b0001101, 0b0001110, 0b0001111, 0b0100000, 0b0101100, 0b0101101, 0b0101110, 0b0101111,
    0b0010000, 0b0011010, 0b0011011, 0b0011101, 0b0011110]

/-- The operations of the reserved codes, in the order of `reservedCodes`. -/
def reservedOperations : List Instr :=
  [.reserved1000000, .reserved1000010, .reserved1100101, .reserved1101001, .reserved1101010, .reserved1101011,
    .reserved1101100, .reserved1101101, .reserved1101110, .reserved1101111, .reserved0001100, .reserved0001101,
    .reserved0001110, .reserved0001111, .reserved0100000, .reserved0101100, .reserved0101101, .reserved0101110,
    .reserved0101111, .reserved0010000, .reserved0011010, .reserved0011011, .reserved0011101, .reserved0011110]

/-- The opcode is of type I, II, III or VI. -/
def takesSource (op : BitVec 7) : Bool :=
  let n := op.toNat
  (1 ≤ n && n ≤ 11) || (48 ≤ n && n ≤ 63) || n == 65 || (67 ≤ n && n ≤ 82) || n == 87 || (89 ≤ n && n ≤ 100) ||
    n == 102 || n == 104

/-- The opcode is of type X, XI or XII. -/
def takesOffset (op : BitVec 7) : Bool := 17 ≤ op.toNat && op.toNat ≤ 25

/-- The opcode is of type VIII, XIII, XVI or XVII. -/
def takesLabel (op : BitVec 7) : Bool :=
  let n := op.toNat
  n == 33 || n == 35 || n == 37 || n == 38 || n == 39

/-- The opcode is of type IV, V or VII. -/
def takesRegisters (op : BitVec 7) : Bool :=
  let n := op.toNat
  (83 ≤ n && n ≤ 86) || n == 88 || n == 103 || 112 ≤ n

/-- The values of `imm_sw` that Table 30-C admits for the type of an opcode. -/
def admitted (op : BitVec 7) : List (BitVec 2) :=
  if takesSource op then [0b00, 0b01, 0b11]
  else if takesOffset op then [0b01, 0b11]
  else if takesLabel op then [0b10]
  else if takesRegisters op then [0b00]
  else [0b00, 0b01, 0b10, 0b11]

/-- w[24:23]. -/
def switchBits (w : Syllable) : BitVec 2 := (w >>> 23).setWidth 2

/-- The blocks of the opcode map (30_encoding.md R74). -/
inductive Family where
  | nop
  | mul
  | mem
  | ctrl
  | select
  | alu
  | carry
  deriving DecidableEq, Repr

/-- The first opcode of a block. -/
def Family.first : Family → Nat
  | .nop => 0b0000000
  | .mul => 0b0000001
  | .mem => 0b0010000
  | .ctrl => 0b0100000
  | .select => 0b0110000
  | .alu => 0b1000000
  | .carry => 0b1110000

/-- The last opcode of a block. -/
def Family.last : Family → Nat
  | .nop => 0b0000000
  | .mul => 0b0001111
  | .mem => 0b0011111
  | .ctrl => 0b0101111
  | .select => 0b0111111
  | .alu => 0b1101111
  | .carry => 0b1111111

/-- The family of an operation, by the source's tables: a reserved code by its description, SYL_FOLLOW and STOP with
MEM, SEND and RECV with CTRL (R74, R75). -/
def family : Instr → Family
  | .nop => .nop
  | .mpyll _ _ _ | .mpyllu _ _ _ | .mpylh _ _ _ | .mpylhu _ _ _ | .mpyhh _ _ _ | .mpyhhu _ _ _ | .mpyl _ _ _
  | .mpylu _ _ _ | .mpyh _ _ _ | .mpyhu _ _ _ | .mpyhs _ _ _ | .reserved0001100 | .reserved0001101
  | .reserved0001110 | .reserved0001111 => .mul
  | .reserved0010000 | .ldw _ _ _ | .ldh _ _ _ | .ldhu _ _ _ | .ldb _ _ _ | .ldbu _ _ _ | .stw _ _ _ | .sth _ _ _
  | .stb _ _ _ | .pft _ _ | .reserved0011010 | .reserved0011011 | .sylFollow _ | .reserved0011101
  | .reserved0011110 | .stop => .mem
  | .reserved0100000 | .goto _ | .igoto | .call _ | .icall | .br _ _ | .brf _ _ | .ret _ _ | .rfi | .xnop _
  | .send _ | .recv _ | .reserved0101100 | .reserved0101101 | .reserved0101110 | .reserved0101111 => .ctrl
  | .slctf _ _ _ _ | .slct _ _ _ _ => .select
  | .reserved1000000 | .add _ _ _ | .reserved1000010 | .and _ _ _ | .andc _ _ _ | .max _ _ _ | .maxu _ _ _
  | .min _ _ _ | .minu _ _ _ | .or _ _ _ | .orc _ _ _ | .sh1add _ _ _ | .sh2add _ _ _ | .sh3add _ _ _
  | .sh4add _ _ _ | .shl _ _ _ | .shr _ _ _ | .shru _ _ _ | .sub _ _ _ | .sxtb _ _ | .sxth _ _ | .zxtb _ _
  | .zxth _ _ | .xor _ _ _ | .mov _ _ | .cmpeq _ _ _ | .cmpge _ _ _ | .cmpgeu _ _ _ | .cmpgt _ _ _
  | .cmpgtu _ _ _ | .cmple _ _ _ | .cmpleu _ _ _ | .cmplt _ _ _ | .cmpltu _ _ _ | .cmpne _ _ _ | .nandl _ _ _
  | .norl _ _ _ | .reserved1100101 | .orl _ _ _ | .mtb _ _ | .andl _ _ _ | .reserved1101001
  | .reserved1101010 | .reserved1101011 | .reserved1101100 | .reserved1101101 | .reserved1101110
  | .reserved1101111 => .alu
  | .divs _ _ _ _ _ | .addcg _ _ _ _ _ => .carry

/-! ### Bundles -/

/-- One of GOTO, IGOTO, CALL, ICALL, BR, BRF, RETURN (30_encoding.md R80 a). -/
def isControl : Instr → Bool
  | .goto _ | .igoto | .call _ | .icall | .br _ _ | .brf _ _ | .ret _ _ => true
  | _ => false

/-- One of LDW, LDH, LDHU, LDB, LDBU, STW, STH, STB (30_encoding.md R80 b). -/
def isMemory : Instr → Bool
  | .ldw _ _ _ | .ldh _ _ _ | .ldhu _ _ _ | .ldb _ _ _ | .ldbu _ _ _ | .stw _ _ _ | .sth _ _ _ | .stb _ _ _ => true
  | _ => false

/-- The operation is an ALU or MUL operation (60_exceptions.md R232). -/
def isArithmetic : Instr → Bool
  | .mpyll _ _ _ | .mpyllu _ _ _ | .mpylh _ _ _ | .mpylhu _ _ _ | .mpyhh _ _ _ | .mpyhhu _ _ _ | .mpyl _ _ _
  | .mpylu _ _ _ | .mpyh _ _ _ | .mpyhu _ _ _ | .mpyhs _ _ _ | .slctf _ _ _ _ | .slct _ _ _ _ | .add _ _ _
  | .and _ _ _ | .andc _ _ _ | .max _ _ _ | .maxu _ _ _ | .min _ _ _ | .minu _ _ _ | .or _ _ _ | .orc _ _ _
  | .sh1add _ _ _ | .sh2add _ _ _ | .sh3add _ _ _ | .sh4add _ _ _ | .shl _ _ _ | .shr _ _ _ | .shru _ _ _
  | .sub _ _ _ | .sxtb _ _ | .sxth _ _ | .zxtb _ _ | .zxth _ _ | .xor _ _ _ | .mov _ _ | .cmpeq _ _ _
  | .cmpge _ _ _ | .cmpgeu _ _ _ | .cmpgt _ _ _ | .cmpgtu _ _ _ | .cmple _ _ _ | .cmpleu _ _ _ | .cmplt _ _ _
  | .cmpltu _ _ _ | .cmpne _ _ _ | .nandl _ _ _ | .norl _ _ _ | .orl _ _ _ | .mtb _ _ | .andl _ _ _
  | .divs _ _ _ _ _ | .addcg _ _ _ _ _ => true
  | .nop | .reserved0001100 | .reserved0001101 | .reserved0001110 | .reserved0001111 | .reserved0010000
  | .ldw _ _ _ | .ldh _ _ _ | .ldhu _ _ _ | .ldb _ _ _ | .ldbu _ _ _ | .stw _ _ _ | .sth _ _ _ | .stb _ _ _
  | .pft _ _ | .reserved0011010 | .reserved0011011 | .sylFollow _ | .reserved0011101 | .reserved0011110
  | .stop | .reserved0100000 | .goto _ | .igoto | .call _ | .icall | .br _ _ | .brf _ _ | .ret _ _ | .rfi
  | .xnop _ | .send _ | .recv _ | .reserved0101100 | .reserved0101101 | .reserved0101110 | .reserved0101111
  | .reserved1000000 | .reserved1000010 | .reserved1100101 | .reserved1101001 | .reserved1101010
  | .reserved1101011 | .reserved1101100 | .reserved1101101 | .reserved1101110 | .reserved1101111 => false

/-- One of SHL, SHR, SHRU, which alone may draw (40_alu.md R115 to R117). -/
def isShift : Instr → Bool
  | .shl _ _ _ | .shr _ _ _ | .shru _ _ _ => true
  | _ => false

/-- BR `k` is the target of the operation (10_state.md R25). -/
def WritesBr (i : Instr) (k : BR) : Prop :=
  (∃ s1 a, i = .cmpeq (.br k) s1 a ∨ i = .cmpge (.br k) s1 a ∨ i = .cmpgeu (.br k) s1 a ∨ i = .cmpgt (.br k) s1 a ∨
    i = .cmpgtu (.br k) s1 a ∨ i = .cmple (.br k) s1 a ∨ i = .cmpleu (.br k) s1 a ∨ i = .cmplt (.br k) s1 a ∨
    i = .cmpltu (.br k) s1 a ∨ i = .cmpne (.br k) s1 a ∨ i = .nandl (.br k) s1 a ∨ i = .norl (.br k) s1 a ∨
    i = .orl (.br k) s1 a ∨ i = .andl (.br k) s1 a) ∨
  (∃ s1, i = .mtb k s1) ∨ ∃ t b1 s1 s2, i = .addcg t k b1 s1 s2 ∨ i = .divs t k b1 s1 s2

/-- BR `k` is a source of the operation (10_state.md R25). -/
def ReadsBr (i : Instr) (k : BR) : Prop :=
  (∃ t s1 a, i = .slct t k s1 a ∨ i = .slctf t k s1 a) ∨
  (∃ t b s1 s2, i = .addcg t b k s1 s2 ∨ i = .divs t b k s1 s2) ∨ ∃ off, i = .br k off ∨ i = .brf k off

/-- Two operations at different places of the bundle write one GR other than `$r0.0`, or one BR (R80 c). -/
def WritesConflict (is : List Instr) : Prop :=
  ∃ (p q : Nat) (i j : Instr), p < q ∧ is[p]? = some i ∧ is[q]? = some j ∧
    ((∃ k : GR, k ≠ 0 ∧ k ∈ (access i).grWrites ∧ k ∈ (access j).grWrites) ∨
     ∃ k : BR, k ∈ (access i).brWrites ∧ k ∈ (access j).brWrites)

/-- The machine can step and the bundle at its pc is `b` (R81). -/
def Fetches (s : State) (b : Bundle) : Prop :=
  s.halted = false ∧ s.fault = none ∧ 0 ≤ s.pc ∧ s.imem[s.pc.toNat]? = some b

end Sys2Proof.Rules
end

