-- ==== Sys2Proof/Certificates/Slice0/Obligations.lean ====
section
/-! DEFINITION. The statements, in the words of Sys2Proof/Certificates/Slice0/Rules.lean. OBLIGATIONS.json gives each
its tier, its basis and the rules it cites. -/

open Sys2Proof Sys2Proof.Machine Sys2Proof.Rules

/-! ### ALU (spec/40_alu.md) -/

/-- R102, R103, R109, R123: result and frame, reads, encodings. The encodings are those of LAYOUT, the spec's
own choice (notes/assumptions/8.md), and that an unwritten source faults is its decision D35. -/
def Obligations.AddAndLogicRules : Prop :=
  BinaryRule 0b1000001 .add (fun a b => a + b) ∧
  BinaryRule 0b1000011 .and (fun a b => a &&& b) ∧
  BinaryRule 0b1001001 .or (fun a b => a ||| b) ∧
  BinaryRule 0b1010111 .xor (fun a b => a ^^^ b)

/-- R104, R110 to R114: source 1 is the operand complemented or shifted. -/
def Obligations.ComplementAndShiftAddRules : Prop :=
  BinaryRule 0b1000100 .andc (fun a b => ~~~a &&& b) ∧
  BinaryRule 0b1001010 .orc (fun a b => ~~~a ||| b) ∧
  BinaryRule 0b1001011 .sh1add (fun a b => 2 * a + b) ∧
  BinaryRule 0b1001100 .sh2add (fun a b => 4 * a + b) ∧
  BinaryRule 0b1001101 .sh3add (fun a b => 8 * a + b) ∧
  BinaryRule 0b1001110 .sh4add (fun a b => 16 * a + b)

/-- R105 to R108: result and frame, reads, encodings. The encodings are those of LAYOUT, the spec's
own choice (notes/assumptions/8.md), and that an unwritten source faults is its decision D35. -/
def Obligations.AluMaximumAndMinimumRules : Prop :=
  BinaryRule 0b1000101 .max (fun a b => BitVec.ofInt 32 (max a.toInt b.toInt)) ∧
  BinaryRule 0b1000110 .maxu (fun a b => BitVec.ofNat 32 (max a.toNat b.toNat)) ∧
  BinaryRule 0b1000111 .min (fun a b => BitVec.ofInt 32 (min a.toInt b.toInt)) ∧
  BinaryRule 0b1001000 .minu (fun a b => BitVec.ofNat 32 (min a.toNat b.toNat))

/-- R115 to R117 for an amount of at most 31, in both forms: the shifts as products and quotients by a power of two. -/
def Obligations.ShiftsWithinTheWidth : Prop :=
  ∀ (t s1 : GR) (a : Src2) (s : State), Readable s (s1 :: named a) [] → (sval s a).toNat ≤ 31 →
    exec (.shl t s1 a) s =
      .next (putGr s t (BitVec.ofNat 32 ((gval s s1).toNat * 2 ^ (sval s a).toNat)) (s.pc + 1)) ∧
    exec (.shr t s1 a) s =
      .next (putGr s t (BitVec.ofInt 32 ((gval s s1).toInt / 2 ^ (sval s a).toNat)) (s.pc + 1)) ∧
    exec (.shru t s1 a) s =
      .next (putGr s t (BitVec.ofNat 32 ((gval s s1).toNat / 2 ^ (sval s a).toNat)) (s.pc + 1))

/-- R115 to R117 for an amount above 31: the operation runs, writes some value to its target, and changes nothing else
but the model's own count of draws, which it advances by one (the model's choice, notes/assumptions/6.md). -/
def Obligations.ShiftsBeyondTheWidthDrawAValue : Prop :=
  ∀ (i : Instr) (t s1 : GR) (a : Src2) (s : State),
    i = .shl t s1 a ∨ i = .shr t s1 a ∨ i = .shru t s1 a →
    Readable s (s1 :: named a) [] → 31 < (sval s a).toNat →
    ∃ v : Word, exec i s = .next { putGr s t v (s.pc + 1) with draws := s.draws + 1 }

/-- R115 to R117: what the shifts read, and their encodings. -/
def Obligations.ShiftReadsAndEncodings : Prop :=
  ∀ p ∈ ([(0b1001111#7, .shl), (0b1010000#7, .shr), (0b1010001#7, .shru)] : List (BitVec 7 × (GR → GR → Src2 → Instr))),
    (∀ t s1 a, ReadsThese (p.2 t s1 a) (s1 :: named a) []) ∧
    RegisterOrImmediate p.1 (fun d a c _ => p.2 d.toFin a.toFin (.reg c.toFin))
      (fun d a v => p.2 d.toFin a.toFin (.imm v))

/-- R118: the first written operand minus the second. -/
def Obligations.SubtractRule : Prop :=
  BinaryRule 0b1010010 (fun t s1 a => .sub t a s1) (fun a b => BitVec.ofInt 32 (b.toInt - a.toInt))

/-- R119 to R122, R124: result and frame, reads, encodings. The encodings are those of LAYOUT, the spec's
own choice (notes/assumptions/8.md), and that an unwritten source faults is its decision D35. -/
def Obligations.ExtensionAndMoveRules : Prop :=
  UnaryRule 0b1010011 .sxtb (fun a => BitVec.ofInt 32 (Int.bmod a.toNat 256)) ∧
  UnaryRule 0b1010100 .sxth (fun a => BitVec.ofInt 32 (Int.bmod a.toNat 65536)) ∧
  UnaryRule 0b1010101 .zxtb (fun a => a &&& 0x000000FF) ∧
  UnaryRule 0b1010110 .zxth (fun a => a &&& 0x0000FFFF) ∧
  UnaryRule 0b1011000 .mov (fun a => a)

/-- R125 to R130: the compares for equal, greater or equal, and greater. -/
def Obligations.CompareEqualAndGreaterRules : Prop :=
  TruthRule 0b1011001 .cmpeq (fun a b => decide (a = b)) ∧
  TruthRule 0b1011010 .cmpge (fun a b => decide (a.toInt ≥ b.toInt)) ∧
  TruthRule 0b1011011 .cmpgeu (fun a b => decide (a.toNat ≥ b.toNat)) ∧
  TruthRule 0b1011100 .cmpgt (fun a b => decide (a.toInt > b.toInt)) ∧
  TruthRule 0b1011101 .cmpgtu (fun a b => decide (a.toNat > b.toNat))

/-- R125, R131 to R135: the compares for less or equal, less, and not equal. -/
def Obligations.CompareLessAndUnequalRules : Prop :=
  TruthRule 0b1011110 .cmple (fun a b => decide (a.toInt ≤ b.toInt)) ∧
  TruthRule 0b1011111 .cmpleu (fun a b => decide (a.toNat ≤ b.toNat)) ∧
  TruthRule 0b1100000 .cmplt (fun a b => decide (a.toInt < b.toInt)) ∧
  TruthRule 0b1100001 .cmpltu (fun a b => decide (a.toNat < b.toNat)) ∧
  TruthRule 0b1100010 .cmpne (fun a b => decide (a ≠ b))

/-- R125, R136 to R139: an operand is true when it is not zero. -/
def Obligations.LogicalTruthRules : Prop :=
  TruthRule 0b1100011 .nandl (fun a b => decide (¬ (a ≠ 0 ∧ b ≠ 0))) ∧
  TruthRule 0b1100100 .norl (fun a b => decide (¬ (a ≠ 0 ∨ b ≠ 0))) ∧
  TruthRule 0b1100110 .orl (fun a b => decide (a ≠ 0 ∨ b ≠ 0)) ∧
  TruthRule 0b1101000 .andl (fun a b => decide (a ≠ 0 ∧ b ≠ 0))

/-- R140. -/
def Obligations.MoveToBranchRegisterRule : Prop :=
  (∀ b s1 s, Readable s [s1] [] →
    exec (.mtb b s1) s = .next (putBr s b (decide (gval s s1 ≠ 0)) (s.pc + 1))) ∧
  (∀ b s1, ReadsThese (.mtb b s1) [s1] []) ∧
  OnlyRegister 0b1100111 (fun _ a _ b => .mtb b.toFin a.toFin)

/-- R141: the GR and the BR together are the 33-bit sum. The encodings are those of LAYOUT, the spec's
own choice (notes/assumptions/8.md), and that an unwritten source faults is its decision D35. -/
def Obligations.AddWithCarryRule : Prop :=
  CarryRule 0b1111 .addcg (fun c a b => BitVec.ofNat 32 (a.toNat + b.toNat + c.toNat))
    (fun c a b => decide (2 ^ 32 ≤ a.toNat + b.toNat + c.toNat))

/-- R142: the carry enters at bit 0, bit 31 of source 1 leaves, and it chooses the sum or the difference. -/
def Obligations.DivisionStepRule : Prop :=
  CarryRule 0b1110 .divs
    (fun c a b => if 2 ^ 31 ≤ a.toNat then BitVec.ofNat 32 (2 * a.toNat + c.toNat) + b
      else BitVec.ofNat 32 (2 * a.toNat + c.toNat) - b)
    (fun _ a _ => decide (2 ^ 31 ≤ a.toNat))

/-- R143, R144: result and frame, reads, encodings. The encodings are those of LAYOUT, the spec's
own choice (notes/assumptions/8.md), and that an unwritten source faults is its decision D35. -/
def Obligations.SelectRules : Prop :=
  SelectRule 0b0111 .slct (fun c a b => if c = true then a else b) ∧
  SelectRule 0b0110 .slctf (fun c a b => if c = false then a else b)

/-- R232: an ALU or MUL operation whose registers have been written raises no fault and goes on to the next bundle. -/
def Obligations.NoArithmeticConditionFaults : Prop :=
  ∀ (i : Instr) (s : State), isArithmetic i = true → Readable s (access i).grReads (access i).brReads →
    ∃ t, exec i s = .next t ∧ t.fault = s.fault ∧ t.pc = s.pc + 1 ∧ t.dmem = s.dmem ∧ t.halted = s.halted

/-! ### MUL (spec/41_mul.md) -/

/-- R151 to R156: result and frame, reads, encodings. The encodings are those of LAYOUT, the spec's
own choice (notes/assumptions/8.md), and that an unwritten source faults is its decision D35. -/
def Obligations.HalfByHalfProductRules : Prop :=
  BinaryRule 0b0000001 .mpyll (fun a b => BitVec.ofInt 32 ((a.setWidth 16).toInt * (b.setWidth 16).toInt)) ∧
  BinaryRule 0b0000010 .mpyllu (fun a b => BitVec.ofNat 32 ((a.toNat % 65536) * (b.toNat % 65536))) ∧
  BinaryRule 0b0000011 .mpylh (fun a b => BitVec.ofInt 32 ((a.setWidth 16).toInt * (b.toInt / 65536))) ∧
  BinaryRule 0b0000100 .mpylhu (fun a b => BitVec.ofNat 32 ((a.toNat % 65536) * (b.toNat / 65536))) ∧
  BinaryRule 0b0000101 .mpyhh (fun a b => BitVec.ofInt 32 ((a.toInt / 65536) * (b.toInt / 65536))) ∧
  BinaryRule 0b0000110 .mpyhhu (fun a b => BitVec.ofNat 32 ((a.toNat / 65536) * (b.toNat / 65536)))

/-- R157 to R161. -/
def Obligations.WordByHalfProductRules : Prop :=
  BinaryRule 0b0000111 .mpyl (fun a b => BitVec.ofInt 32 (a.toInt * (b.setWidth 16).toInt)) ∧
  BinaryRule 0b0001000 .mpylu (fun a b => BitVec.ofNat 32 (a.toNat * (b.toNat % 65536))) ∧
  BinaryRule 0b0001001 .mpyh (fun a b => BitVec.ofInt 32 (a.toInt * (b.toInt / 65536))) ∧
  BinaryRule 0b0001010 .mpyhu (fun a b => BitVec.ofNat 32 (a.toNat * (b.toNat / 65536))) ∧
  BinaryRule 0b0001011 .mpyhs (fun a b => BitVec.ofInt 32 (a.toInt * (b.toInt / 65536) * 65536))

/-- R163: the 16 x 16 products are exact in 32 bits, signed and unsigned, for every pair of operands. -/
def Obligations.HalfByHalfProductsAreExact : Prop :=
  ∀ (t s1 : GR) (a : Src2) (s : State), t ≠ 0 → Readable s (s1 :: named a) [] →
    (∃ u, exec (.mpyll t s1 a) s = .next u ∧
      u.gr[t].toInt = ((gval s s1).setWidth 16).toInt * ((sval s a).setWidth 16).toInt) ∧
    (∃ u, exec (.mpylh t s1 a) s = .next u ∧
      u.gr[t].toInt = ((gval s s1).setWidth 16).toInt * ((sval s a).toInt / 65536)) ∧
    (∃ u, exec (.mpyhh t s1 a) s = .next u ∧
      u.gr[t].toInt = ((gval s s1).toInt / 65536) * ((sval s a).toInt / 65536)) ∧
    (∃ u, exec (.mpyllu t s1 a) s = .next u ∧
      u.gr[t].toNat = ((gval s s1).toNat % 65536) * ((sval s a).toNat % 65536)) ∧
    (∃ u, exec (.mpylhu t s1 a) s = .next u ∧
      u.gr[t].toNat = ((gval s s1).toNat % 65536) * ((sval s a).toNat / 65536)) ∧
    ∃ u, exec (.mpyhhu t s1 a) s = .next u ∧
      u.gr[t].toNat = ((gval s s1).toNat / 65536) * ((sval s a).toNat / 65536)

/-- R161's corner case: MPYLU plus MPYHS is the full product modulo 2^32. -/
def Obligations.MpyluPlusMpyhsIsTheFullProduct : Prop :=
  ∀ (t u s1 : GR) (a : Src2) (s : State), t ≠ 0 → u ≠ 0 → Readable s (s1 :: named a) [] →
    ∃ x y, exec (.mpylu t s1 a) s = .next x ∧ exec (.mpyhs u s1 a) s = .next y ∧
      x.gr[t] + y.gr[u] = gval s s1 * sval s a

/-! ### CTRL (spec/42_ctrl.md) -/

/-- R171, R173: relative to the pc of the bundle; CALL leaves `pc + 1` modulo 2^32 in GR 63. -/
def Obligations.RelativeJumpAndCallRules : Prop :=
  (∀ off s, exec (.goto off) s = .next { s with pc := s.pc + off }) ∧
  (∀ off s, exec (.call off) s = .next (putGr s 63 (BitVec.ofInt 32 (s.pc + 1)) (s.pc + off))) ∧
  OnlyBranch 0b0100001 (fun _ o _ => .goto o.toInt) ∧
  OnlyBranch 0b0100011 (fun _ o _ => .call o.toInt)

/-- R172, R174: to the value of GR 63 before the bundle, as an unsigned bundle index. -/
def Obligations.IndirectJumpAndCallRules : Prop :=
  (∀ s, Readable s [63] [] → exec .igoto s = .next { s with pc := (s.gr[63].toNat : Int) }) ∧
  (∀ s, Readable s [63] [] →
    exec .icall s = .next (putGr s 63 (BitVec.ofInt 32 (s.pc + 1)) (s.gr[63].toNat : Int))) ∧
  ReadsThese .igoto [63] [] ∧ ReadsThese .icall [63] [] ∧
  AnyBits 0b0100010 .igoto ∧ AnyBits 0b0100100 .icall

/-- R175, R176. -/
def Obligations.ConditionalBranchRules : Prop :=
  BranchRule 0b0100101 .br true ∧ BranchRule 0b0100110 .brf false

/-- R177: the frame size is added to `r[t]` and the jump goes to GR 63, both from the values before the bundle. -/
def Obligations.ReturnRule : Prop :=
  (∀ t frame s, Readable s [t, 63] [] →
    exec (.ret t frame) s =
      .next (putGr s t (gval s t + BitVec.ofInt 32 frame) (s.gr[63].toNat : Int))) ∧
  (∀ t frame, ReadsThese (.ret t frame) [t, 63] []) ∧
  OnlyBranch 0b0100111 (fun d o _ => .ret d.toFin o.toInt)

/-- R178, R212, R213, R231: RFI, SEND and RECV always raise `Unsupported`, with any operand bits. -/
def Obligations.UnsupportedOperationRules : Prop :=
  (∀ s, exec .rfi s = raised s (.unsupported .rfi)) ∧
  (∀ operands s, exec (.send operands) s = raised s (.unsupported .send)) ∧
  (∀ operands s, exec (.recv operands) s = raised s (.unsupported .recv)) ∧
  AnyBits 0b0101000 .rfi ∧ AnyBits 0b0101010 (.send none) ∧ AnyBits 0b0101011 (.recv none)

/-- R179, R211: NOP and XNOP change only the pc; any bits below NOP's opcode are a NOP; XNOP's `n` is carried by the
branch form, and the other switches carry none (Table 30-C, row XV). -/
def Obligations.NoOperationRules : Prop :=
  (∀ s, exec .nop s = .next { s with pc := s.pc + 1 }) ∧
  (∀ n s, exec (.xnop n) s = .next { s with pc := s.pc + 1 }) ∧
  AnyBits 0b0000000 .nop ∧
  (∀ (w : Syllable) (rest : List Syllable), opcodeBits w = 0b0101001#7 → switchBits w ≠ 0b10#2 →
    decodeSyllable w rest = .ok (.xnop none, false)) ∧
  (∀ (d : BitVec 6) (o : BitVec 12) (b : BitVec 3) (lf : BitVec 2) (rest : List Syllable),
    decodeSyllable (offForm 0b0101001 d o b lf) rest = .ok (.xnop (some o.toNat), false))

/-! ### MEM (spec/43_mem.md, spec/20_memory.md) -/

/-- R190 to R194: big-endian values, sign- or zero-extended. -/
def Obligations.LoadRules : Prop :=
  LoadRule 0b0010001 .ldw 4 (fun n => BitVec.ofNat 32 n) ∧
  LoadRule 0b0010010 .ldh 2 (fun n => BitVec.ofInt 32 (Int.bmod n 65536)) ∧
  LoadRule 0b0010011 .ldhu 2 (fun n => BitVec.ofNat 32 n) ∧
  LoadRule 0b0010100 .ldb 1 (fun n => BitVec.ofInt 32 (Int.bmod n 256)) ∧
  LoadRule 0b0010101 .ldbu 1 (fun n => BitVec.ofNat 32 n)

/-- R195 to R197. -/
def Obligations.StoreRules : Prop :=
  StoreRule 0b0010110 .stw 4 ∧ StoreRule 0b0010111 .sth 2 ∧ StoreRule 0b0011000 .stb 1

/-- R198: the base register is read; no address faults; nothing but the pc changes. -/
def Obligations.PrefetchRule : Prop :=
  (∀ off s1 s, Readable s [s1] [] → exec (.pft off s1) s = .next { s with pc := s.pc + 1 }) ∧
  (∀ off s1, ReadsThese (.pft off s1) [s1] []) ∧
  OnlyImmediate 0b0011001 (fun _ a v => .pft v a.toFin)

/-- R40, R47: a load returns the latest store. After a word store, the word, both halves and all four bytes read as
the big-endian parts of the stored value. -/
def Obligations.LoadReturnsTheLatestStoreBigEndian : Prop :=
  ∀ (off : Word) (s1 s2 : GR) (s : State), Readable s [s1, s2] [] →
    (addr s s1 off).toNat % 4 = 0 → Inside s (addr s s1 off) 4 →
    ∃ u, exec (.stw off s1 s2) s = .next u ∧
      (∀ t, exec (.ldw t off s1) u = .next (putGr u t (gval s s2) (u.pc + 1))) ∧
      (∀ (t : GR) (k : Nat), k < 2 →
        exec (.ldhu t (off + BitVec.ofNat 32 (2 * k)) s1) u =
          .next (putGr u t (((gval s s2).extractLsb' (16 * (1 - k)) 16).setWidth 32) (u.pc + 1))) ∧
      ∀ (t : GR) (k : Nat), k < 4 →
        exec (.ldbu t (off + BitVec.ofNat 32 k) s1) u =
          .next (putGr u t (((gval s s2).extractLsb' (8 * (3 - k)) 8).setWidth 32) (u.pc + 1))

/-! ### Miscellaneous and reserved codes (spec/44_misc.md, spec/30_encoding.md) -/

/-- R210: STOP alone, its encodings, and in a bundle: a step that commits leaves the machine halted exactly when its
bundle holds STOP. -/
def Obligations.StopRule : Prop :=
  (∀ s, exec .stop s = .next { s with pc := s.pc + 1, halted := true }) ∧
  AnyBits 0b0011111 .stop ∧
  ∀ s t b is, Fetches s b → decodeBundle b = .ok is → step s = .next t → t.fault = none →
    (t.halted = true ↔ .stop ∈ is)

/-- R227, R214, R69: a SYL_FOLLOW that no long immediate takes raises `OrphanFollow`; a long immediate without its
SYL_FOLLOW raises `BadLongImm`; a consumed SYL_FOLLOW is no operation. That the row of SYL_FOLLOW is an operation of the
model, which `exec` answers with the fault of slot 0, is the model's choice (notes/assumptions/13.md): R214 says that it
is none. -/
def Obligations.LongImmediatePairing : Prop :=
  (∀ slot w rest, opcodeBits w = followCode →
    decodeSlots slot false (w :: rest) = .error (.orphanFollow slot)) ∧
  (∀ slot w rest, takesSource (opcodeBits w) = true ∨ takesOffset (opcodeBits w) = true → switchBits w = 0b11 →
    (∀ f ∈ rest.head?, opcodeBits f ≠ followCode) →
    decodeSlots slot false (w :: rest) = .error (.badLongImm slot)) ∧
  (∀ slot w f rest, takesSource (opcodeBits w) = true ∨ takesOffset (opcodeBits w) = true → switchBits w = 0b11 →
    opcodeBits f = followCode →
    ∃ i, decodeSyllable w (f :: rest) = .ok (i, true) ∧
      decodeSlots slot false (w :: f :: rest) =
        match decodeSlots (slot + 2) false rest with
        | .error c => .error c
        | .ok is => .ok (i :: is)) ∧
  ∀ p s, exec (.sylFollow p) s = raised s (.orphanFollow 0)

/-- R75, R228: the 24 reserved codes, and no other, raise `IllegalOpcode` in their slot. -/
def Obligations.ReservedCodesAreIllegal : Prop :=
  (∀ slot w rest, opcodeBits w ∈ reservedCodes →
    decodeSlots slot false (w :: rest) = .error (.illegalOpcode slot (opcodeBits w))) ∧
  (∀ slot w rest, opcodeBits w ∉ reservedCodes → ∀ op,
    decodeSlots slot false (w :: rest) ≠ .error (.illegalOpcode slot op)) ∧
  reservedCodes.length = 24 ∧ reservedCodes.Nodup

/-- The operation of a reserved code, alone in slot 0, raises `IllegalOpcode`, and its code is decoded to it whatever the
bits below. That a reserved code is an operation of the model at all, whose fault `exec` gives with slot 0, is the model's
choice (notes/assumptions/13.md), and so is that `ROP` is empty (notes/assumptions/11.md): R75, R145, R162, R180 and R199
give the codes no operation, and the decoder of a bundle raises the fault (`ReservedCodesAreIllegal`). -/
def Obligations.ReservedOperationsRaiseIllegalOpcode : Prop :=
  ∀ p ∈ reservedCodes.zip reservedOperations,
    (∀ s, exec p.2 s = raised s (.illegalOpcode 0 p.1)) ∧ AnyBits p.1 p.2

/-! ### Encoding (spec/30_encoding.md) -/

/-- R74, Table 30-D, for the decoder and the encoder. No syllable has an opcode that the table does not list, and every
opcode decodes, which for the 24 reserved codes and SYL_FOLLOW is the model's choice (notes/assumptions/13.md, DESIGN
CHOICE): the decoder of one syllable gives them an operation, where R73, R75 and R228 raise IllegalOpcode or OrphanFollow
at decode, as the decoder of a bundle does (`ReservedCodesAreIllegal`, `LongImmediatePairing`). What a syllable decodes to, and what it encodes, is an operation with its opcode. The rows stand in
numeric order, each has one opcode but the four of types III and IV, which have the eight that begin with theirs, `b1`
the rest; and the families are the blocks that the rule names. `Instr.opcode` is the table, `Instr.ctorIdx` the number
of an operation's row in spec/opcode_table.json. That the opcode stands in w[31:25], and `b1` in w[27:25], is LAYOUT, the
spec's general knowledge (notes/assumptions/8.md, PRESUMED). -/
def Obligations.OpcodeMapRule : Prop :=
  (∀ w rest, decodeSyllable w rest ≠ .error .noOpcode) ∧
  (∀ op : BitVec 7, ∃ w rest i next, opcodeBits w = op ∧ decodeSyllable w rest = .ok (i, next)) ∧
  (∀ w rest i next, decodeSyllable w rest = .ok (i, next) → i.opcode = opcodeBits w) ∧
  (∀ i w ws, encode i = some (w :: ws) → opcodeBits w = i.opcode) ∧
  (∀ t b1 s1 a, (Instr.slctf t b1 s1 a).opcode = 0b0110#4 ++ BitVec.ofNat 3 b1.val ∧
    (Instr.slct t b1 s1 a).opcode = 0b0111#4 ++ BitVec.ofNat 3 b1.val) ∧
  (∀ t b b1 s1 s2, (Instr.divs t b b1 s1 s2).opcode = 0b1110#4 ++ BitVec.ofNat 3 b1.val ∧
    (Instr.addcg t b b1 s1 s2).opcode = 0b1111#4 ++ BitVec.ofNat 3 b1.val) ∧
  (∀ i j : Instr, i.ctorIdx < j.ctorIdx → i.opcode.toNat < j.opcode.toNat) ∧
  (∀ i j : Instr, i.ctorIdx = j.ctorIdx → family i ≠ .select → family i ≠ .carry → i.opcode = j.opcode) ∧
  (∀ i : Instr, (family i).first ≤ i.opcode.toNat ∧ i.opcode.toNat ≤ (family i).last) ∧
  (∀ p, (Instr.sylFollow p).opcode = 0b0011100#7) ∧ Instr.stop.opcode = 0b0011111#7 ∧
  (∀ x, (Instr.send x).opcode = 0b0101010#7) ∧ ∀ x, (Instr.recv x).opcode = 0b0101011#7

/-- R67, R225: `BadForm` in a slot exactly when the switch is not admitted for the opcode's type. -/
def Obligations.SwitchNotAdmittedIsBadForm : Prop :=
  (∀ slot w rest, opcodeBits w ∉ reservedCodes → opcodeBits w ≠ followCode →
    switchBits w ∉ admitted (opcodeBits w) →
    decodeSlots slot false (w :: rest) = .error (.badForm slot (opcodeBits w) (switchBits w))) ∧
  ∀ slot w rest, switchBits w ∈ admitted (opcodeBits w) → ∀ op sw,
    decodeSlots slot false (w :: rest) ≠ .error (.badForm slot op sw)

/-- R72: the decoder ignores `F` and `L`, and an assembled bundle has `F` in slot 0 and `L` in slot 3 only. -/
def Obligations.FirstAndLastMarks : Prop :=
  (∀ b b' : Bundle, (∀ k : Fin 4, b[k] >>> 2 = b'[k] >>> 2) → decodeBundle b = decodeBundle b') ∧
  ∀ is b, assemble is = some b →
    ∀ k : Fin 4, b[k].getLsbD 0 = decide (k = 0) ∧ b[k].getLsbD 1 = decide (k = 3)

/-- Decode and encode agree: decoding the syllables of a well-formed operation, whatever follows them in the bundle,
gives the operation back and consumes exactly its syllables (R61, R67, R68, R69). -/
def Obligations.DecodeOfEncodeIsTheOperation : Prop :=
  ∀ i, i.wellFormed = true → ∃ w ws, encode i = some (w :: ws) ∧
    ∀ rest, decodeSyllable w (ws ++ rest) = .ok (i, decide (ws.length = 1)) ∧ ws.length ≤ 1

/-- Nothing decodes to an operation that has no encoding (U21, U24). -/
def Obligations.DecodedOperationsAreWellFormed : Prop :=
  ∀ w rest i next, decodeSyllable w rest = .ok (i, next) → i.wellFormed = true

/-- Vectors E7, E8, E11, E15, E18, E27, E31, E35, E38 and E48 of 95_test_vectors.md decode as printed. -/
def Obligations.PrintedWordsDecode : Prop :=
  decodeSyllable 0x827FF7A0 [] = .ok (.add 63 62 (.reg 61), false) ∧
  decodeSyllable 0xA4860828 [] = .ok (.sub 3 (.imm 10) 1, false) ∧
  decodeSyllable 0xB2000854 [] = .ok (.cmpeq (.br 5) 1 (.reg 2), false) ∧
  decodeSyllable 0x76080840 [] = .ok (.slct 4 3 1 (.reg 2), false) ∧
  decodeSyllable 0xF20828C8 [] = .ok (.addcg 4 2 1 5 6, false) ∧
  decodeSyllable 0x228A0FF0 [] = .ok (.ldw 5 (-4) 1, false) ∧
  decodeSyllable 0x3092081C [] = .ok (.stb 7 1 9, false) ∧
  decodeSyllable 0x4B01FFCC [] = .ok (.br 3 (-2), false) ∧
  decodeSyllable 0x4F020200 [] = .ok (.ret 1 16, false) ∧
  decodeSyllable 0x838609E0 [0x382468AC] = .ok (.add 3 1 (.imm 0x12345678), true)

/-! ### Fetch, the bundle, faults (spec/30_encoding.md, spec/60_exceptions.md) -/

/-- R81: a halted or faulted machine has no step; a pc outside instruction memory raises `ImemRange`; else the bundle
is the one at the pc. -/
def Obligations.FetchRule : Prop :=
  (∀ s t, s.halted = true → step s ≠ .next t) ∧
  (∀ s t c, s.fault = some c → step s ≠ .next t) ∧
  (∀ s, s.halted = false → s.fault = none → s.pc < 0 ∨ (s.imem.length : Int) ≤ s.pc →
    step s = raised s (.imemRange s.pc)) ∧
  ∀ s : State, 0 ≤ s.pc → s.pc < (s.imem.length : Int) →
    ∃ b, s.imem[s.pc.toNat]? = some b ∧ s.fetch = .ok b

/-- A step runs the decoded instruction: a bundle of one operation and NOPs does exactly what `exec` says. -/
def Obligations.StepRunsTheDecodedOperation : Prop :=
  ∀ (s : State) (b : Bundle) (i : Instr) (nops : List Instr), Fetches s b → decodeBundle b = .ok (i :: nops) →
    (∀ j ∈ nops, j = .nop) → step s = exec i s

/-- R80, R230: the three reasons in their order, and no other bundle is refused. -/
def Obligations.BundleCheckRule : Prop :=
  ∀ (is : List Instr) (s : State), s.fault = none →
    (1 < is.countP isControl → runBundle is s = raised s (.badBundle .twoBranches)) ∧
    (is.countP isControl ≤ 1 → 1 < is.countP isMemory → runBundle is s = raised s (.badBundle .twoMemOps)) ∧
    (is.countP isControl ≤ 1 → is.countP isMemory ≤ 1 → WritesConflict is →
      runBundle is s = raised s (.badBundle .writeConflict)) ∧
    (is.countP isControl ≤ 1 → is.countP isMemory ≤ 1 → ¬ WritesConflict is →
      ∀ r, runBundle is s ≠ raised s (.badBundle r))

/-- R82: with every operation evaluated from the state before the bundle and none raising, the step performs all
their writes together: each register, the memory and the pc are as the operation that changes them leaves them, and
what no operation changes stays, the pc going to the next bundle. The model's own count of draws is as an operation
that draws leaves it (notes/assumptions/6.md). -/
def Obligations.BundleReadsAllThenWritesAll : Prop :=
  ∀ (s : State) (b : Bundle) (is : List Instr), Fetches s b → decodeBundle b = .ok is →
    is.countP isControl ≤ 1 → is.countP isMemory ≤ 1 → ¬ WritesConflict is →
    (∀ i ∈ is, ∃ u, exec i s = .next u ∧ u.fault = none) →
    ∃ t, step s = .next t ∧ t.fault = none ∧ t.imem = s.imem ∧ t.dmemBytes = s.dmemBytes ∧
      (∀ i ∈ is, ∀ u, exec i s = .next u →
        (∀ k : GR, u.gr[k] ≠ s.gr[k] → t.gr[k] = u.gr[k]) ∧
        (∀ k : GR, u.grWritten[k] ≠ s.grWritten[k] → t.grWritten[k] = u.grWritten[k]) ∧
        (∀ k : BR, u.br[k] ≠ s.br[k] → t.br[k] = u.br[k]) ∧
        (∀ k : BR, u.brWritten[k] ≠ s.brWritten[k] → t.brWritten[k] = u.brWritten[k]) ∧
        (u.dmem ≠ s.dmem → t.dmem = u.dmem) ∧
        (u.pc ≠ s.pc + 1 → t.pc = u.pc) ∧
        (u.halted = true → t.halted = true) ∧
        (u.draws ≠ s.draws → t.draws = u.draws)) ∧
      (∀ k : GR, (∀ i ∈ is, ∀ u, exec i s = .next u → u.gr[k] = s.gr[k]) → t.gr[k] = s.gr[k]) ∧
      (∀ k : GR, (∀ i ∈ is, ∀ u, exec i s = .next u → u.grWritten[k] = s.grWritten[k]) →
        t.grWritten[k] = s.grWritten[k]) ∧
      (∀ k : BR, (∀ i ∈ is, ∀ u, exec i s = .next u → u.br[k] = s.br[k]) → t.br[k] = s.br[k]) ∧
      (∀ k : BR, (∀ i ∈ is, ∀ u, exec i s = .next u → u.brWritten[k] = s.brWritten[k]) →
        t.brWritten[k] = s.brWritten[k]) ∧
      ((∀ i ∈ is, ∀ u, exec i s = .next u → u.dmem = s.dmem) → t.dmem = s.dmem) ∧
      ((∀ i ∈ is, ∀ u, exec i s = .next u → u.pc = s.pc + 1) → t.pc = s.pc + 1) ∧
      ((∀ i ∈ is, ∀ u, exec i s = .next u → u.halted = false) → t.halted = false) ∧
      ((∀ i ∈ is, ∀ u, exec i s = .next u → u.draws = s.draws) → t.draws = s.draws)

/-- R220: a step that raises a fault changes nothing but the `fault` field, and the machine then has no further
step. -/
def Obligations.FaultIsPreciseAndEndsTheRun : Prop :=
  ∀ s t c, step s = .next t → t.fault = some c → t = { s with fault := some c } ∧ step t = .fault (.faulted c)

/-- R233: decode before the check before the evaluation; in decode and in the evaluation the lowest slot first. A slot
that decodes hands over to the next one, so that its fault comes before theirs (the faults of a slot, whatever follows
it, are those of `SwitchNotAdmittedIsBadForm`, `LongImmediatePairing` and `ReservedCodesAreIllegal`). -/
def Obligations.FaultPriority : Prop :=
  (∀ s b c, Fetches s b → decodeBundle b = .error c → step s = raised s c) ∧
  (∀ s b is r, Fetches s b → decodeBundle b = .ok is → bundleReason is = some r →
    step s = raised s (.badBundle r)) ∧
  (∀ s b pre i post u c, Fetches s b → decodeBundle b = .ok (pre ++ i :: post) →
    bundleReason (pre ++ i :: post) = none →
    (∀ j ∈ pre, ∃ v, exec j s = .next v ∧ v.fault = none) → exec i s = .next u → u.fault = some c →
    step s = raised s c) ∧
  ∀ slot w rest i, opcodeBits w ∉ reservedCodes → opcodeBits w ≠ followCode →
    decodeSyllable w rest = .ok (i, false) →
    decodeSlots slot false (w :: rest) =
      match decodeSlots (slot + 1) false rest with
      | .error c => .error c
      | .ok is => .ok (i :: is)

/-- R222: an operation that reads a register nothing has written raises `UnwrittenRead` for the lowest one, GR before
BR, for the reads of Table 30-C; a load of a byte nothing has written reports the effective address. -/
def Obligations.UnwrittenReadRule : Prop :=
  (∀ i s p, FirstUnread s (access i).grReads (access i).brReads p → exec i s = raised s (.unwrittenRead p)) ∧
  ∀ p ∈ ([(.ldw, 4), (.ldh, 2), (.ldhu, 2), (.ldb, 1), (.ldbu, 1)] : List ((GR → Word → GR → Instr) × Nat)),
    ∀ t off s1 s k, Readable s [s1] [] → (addr s s1 off).toNat % p.2 = 0 → Inside s (addr s s1 off) p.2 → k < p.2 →
      s.byteAt ((addr s s1 off).toNat + k) = none →
      exec (p.1 t off s1) s = raised s (.unwrittenRead (.dmem (addr s s1 off)))

/-! ### The whole machine (spec/10_state.md, spec/00_scope.md, spec/70_reset_and_hazards.md) -/

/-- R21: `$r0.0` reads as zero in every state a step leaves, and a write to it changes nothing; every other GR reads
as what was written to it last. -/
def Obligations.RegisterZeroIsHardwired : Prop :=
  (∀ s : State, s.readGr 0 = 0) ∧ (∀ (s : State) (v : Word), s.writeGr 0 v = s) ∧
  ∀ (s : State) (i k : GR) (v : Word), i ≠ 0 →
    (s.writeGr i v).readGr k = if k = i then v else s.readGr k

/-- Table 30-C: an operation changes no register but those its row lists as written; only a store changes data memory,
only a control transfer gives a pc other than the next, only STOP halts. The last line, on `draws`, is the model's
choice and no part of the table: the count is the model's own, and only a shift advances it, by at most one
(notes/assumptions/6.md, DESIGN CHOICE). -/
def Obligations.OperationsChangeOnlyWhatTheirRowWrites : Prop :=
  ∀ i s t, exec i s = .next t →
    (∀ k : GR, k ∉ (access i).grWrites ∨ k = 0 → t.gr[k] = s.gr[k] ∧ t.grWritten[k] = s.grWritten[k]) ∧
    (∀ k : BR, k ∉ (access i).brWrites → t.br[k] = s.br[k] ∧ t.brWritten[k] = s.brWritten[k]) ∧
    ((access i).store = none → t.dmem = s.dmem) ∧
    (isControl i = false → t.pc = s.pc ∨ t.pc = s.pc + 1) ∧
    (i ≠ .stop → t.halted = s.halted) ∧
    t.imem = s.imem ∧ t.dmemBytes = s.dmemBytes ∧ t.inFlight = s.inFlight ∧
    (isShift i = false → t.draws = s.draws) ∧ (t.draws = s.draws ∨ t.draws = s.draws + 1)

/-- R25: what writes a BR and what reads one. An operation that changes BR `k`, or its `written` flag, is one of those
listed and names `k` as its target. An operation that is not listed as reading BR `k` does the same whatever BR `k`
holds, a GR included, so none copies it there. Nothing is said of a value drawn, under no law (R9): where a draw is
counted (notes/assumptions/6.md), the GR that the row of Table 30-C lists as written is left out. -/
def Obligations.OnlyTheseOperationsWriteOrReadBranchRegisters : Prop :=
  (∀ i s t (k : BR), exec i s = .next t → t.br[k] ≠ s.br[k] ∨ t.brWritten[k] ≠ s.brWritten[k] → WritesBr i k) ∧
  ∀ (i : Instr) (s u : State) (k : BR) (c w : Bool), ¬ ReadsBr i k → exec i s = .next u →
    ∃ u', exec i { s with br := s.br.set k c, brWritten := s.brWritten.set k w } = .next u' ∧
      (u.draws = s.draws → u'.gr = u.gr) ∧ (∀ j : GR, j ∉ (access i).grWrites → u'.gr[j] = u.gr[j]) ∧
      u'.grWritten = u.grWritten ∧ u'.dmem = u.dmem ∧ u'.pc = u.pc ∧ u'.halted = u.halted ∧ u'.fault = u.fault ∧
      (∀ j : BR, j ≠ k → u'.br[j] = u.br[j] ∧ u'.brWritten[j] = u.brWritten[j]) ∧
      (WritesBr i k → u.fault = none → u'.br[k] = u.br[k] ∧ u'.brWritten[k] = u.brWritten[k])

/-- R49: no operation reads data memory and writes it. One that changes data memory changes no register, and whatever
data memory holds it stores the same bytes and leaves the rest of the state alike, so that no store depends on a value
or a reservation in memory. -/
def Obligations.NoOperationReadsAndWritesMemory : Prop :=
  ∀ (i : Instr) (s u : State), exec i s = .next u → u.dmem ≠ s.dmem →
    u.gr = s.gr ∧ u.grWritten = s.grWritten ∧ u.br = s.br ∧ u.brWritten = s.brWritten ∧
    ∀ m : Memory, ∃ m' : Memory, exec i { s with dmem := m } = .next { u with dmem := m' } ∧
      ∀ a, u.byteAt a ≠ s.byteAt a → m'.read a = u.byteAt a

/-- R10: an operation sees nothing of the registers but the ones its row reads: two states that agree on those, the
pc, data memory and the model's count of draws give the same fault, the same pc, the same memory and the same values
written. For a shift beyond the width, that both write the same value, and for every operation that both leave the same
count of draws, is the model's choice and no rule of the spec: a draw is a function of the count and the target
(notes/assumptions/6.md, DESIGN CHOICE, unsafe there), while R9 puts a draw under no law. -/
def Obligations.OperationsSeeOnlyWhatTheirRowReads : Prop :=
  ∀ (i : Instr) (s s' u : State), s.fault = none → s'.fault = none → s.pc = s'.pc → s.dmem = s'.dmem →
    s.dmemBytes = s'.dmemBytes → s.draws = s'.draws → s.halted = s'.halted →
    (∀ k ∈ (access i).grReads, s.gr[k] = s'.gr[k] ∧ s.grWritten[k] = s'.grWritten[k]) →
    (∀ k ∈ (access i).brReads, s.br[k] = s'.br[k] ∧ s.brWritten[k] = s'.brWritten[k]) →
    exec i s = .next u →
    ∃ u', exec i s' = .next u' ∧ u.fault = u'.fault ∧ u.pc = u'.pc ∧ u.dmem = u'.dmem ∧ u.halted = u'.halted ∧
      u.draws = u'.draws ∧
      (u.fault = none →
        (∀ k ∈ (access i).grWrites, k ≠ 0 → u.gr[k] = u'.gr[k] ∧ u.grWritten[k] = true ∧ u'.grWritten[k] = true) ∧
        ∀ k ∈ (access i).brWrites, u.br[k] = u'.br[k] ∧ u.brWritten[k] = true ∧ u'.brWritten[k] = true)

/-- R27, R50: no step changes instruction memory, or the size of data memory. -/
def Obligations.InstructionMemoryNeverChanges : Prop :=
  ∀ s t, Reaches s t → t.imem = s.imem ∧ t.dmemBytes = s.dmemBytes

/-- R30: a register that has been written stays so, and a step that raises nothing sets the flag of every GR whose
value it changes. -/
def Obligations.WrittenRegistersStayWritten : Prop :=
  ∀ s t, step s = .next t →
    (∀ k : GR, s.grWritten[k] = true → t.grWritten[k] = true) ∧
    (∀ k : BR, s.brWritten[k] = true → t.brWritten[k] = true) ∧
    (∀ k : GR, t.gr[k] ≠ s.gr[k] → t.grWritten[k] = true) ∧
    ∀ k : BR, t.br[k] ≠ s.br[k] → t.brWritten[k] = true

/-- The invariant of the machine, kept by every step: data memory in its canonical form and inside its range
(20_memory.md R42, R45), the cell of `$r0.0` zero (R21), halted and faulted exclude each other (R229). -/
def Obligations.EveryStepKeepsTheInvariant : Prop :=
  ∀ s t, s.Inv → step s = .next t → t.Inv

/-- The invariant holds after reset and after the bare reset of Table 10-A. -/
def Obligations.ResetSatisfiesTheInvariant : Prop := State.reset.Inv ∧ State.bareReset.Inv

/-- R33, R250, R251 for what they give a value: pc 0, not halted, no fault, `$r0.0` zero, no data byte with a value;
before a launch names registers, every other register is unwritten. State.reset is that state with every register
named with the value 0, the model's choice (notes/assumptions/1.md), and a data memory of 2^32 bytes, the model's choice
too (notes/assumptions/3.md). -/
def Obligations.ResetLeaves : Prop :=
  State.reset.pc = 0 ∧ State.reset.halted = false ∧ State.reset.fault = none ∧ gval State.reset 0 = 0 ∧
  (∀ a, State.reset.byteAt a = none) ∧
  (∀ i : GR, State.reset.gr[i] = 0 ∧ State.reset.grWritten[i] = true) ∧
  (∀ i : BR, State.reset.br[i] = false ∧ State.reset.brWritten[i] = true) ∧
  State.reset.dmemBytes = 2 ^ 32 ∧
  State.bareReset.pc = 0 ∧ State.bareReset.halted = false ∧ State.bareReset.fault = none ∧
  gval State.bareReset 0 = 0 ∧ (∀ a, State.bareReset.byteAt a = none) ∧
  (∀ i : GR, i ≠ 0 → State.bareReset.grWritten[i] = false) ∧
  ∀ i : BR, State.bareReset.brWritten[i] = false

/-- R252: a launch gives the program, the size of data memory, the named registers their last named value, and leaves
every register it does not name unwritten. -/
def Obligations.LaunchNamesTheInitialState : Prop :=
  ∀ l : Launch,
    (State.launch l).imem = l.program ∧ (State.launch l).dmemBytes = l.dmemBytes ∧ (State.launch l).pc = 0 ∧
    (State.launch l).halted = false ∧ (State.launch l).fault = none ∧
    (∀ pre i v post, l.gr = pre ++ (i, v) :: post → i ≠ 0 → (∀ p ∈ post, p.1 ≠ i) →
      (State.launch l).gr[i] = v ∧ (State.launch l).grWritten[i] = true) ∧
    (∀ i : GR, i ≠ 0 → (∀ p ∈ l.gr, p.1 ≠ i) → (State.launch l).grWritten[i] = false) ∧
    (∀ pre i c post, l.br = pre ++ (i, c) :: post → (∀ p ∈ post, p.1 ≠ i) →
      (State.launch l).br[i] = c ∧ (State.launch l).brWritten[i] = true) ∧
    (∀ i : BR, (∀ p ∈ l.br, p.1 ≠ i) → (State.launch l).brWritten[i] = false) ∧
    (∀ pre a b post, l.dmem = pre ++ (a, b) :: post → (∀ p ∈ post, p.1 ≠ a) → (State.launch l).byteAt a = some b) ∧
    ∀ a, (∀ p ∈ l.dmem, p.1 ≠ a) → (State.launch l).byteAt a = none

/-- R229: a state that any number of steps has reached is halted with no fault, or faulted with nothing halted, or
still running; the first two have no further step, the third has one. -/
def Obligations.RunsEndInExactlyOneOfThreeWays : Prop :=
  ∀ s t, s.Inv → Reaches s t →
    (t.Final ∧ (∀ u, step t ≠ .next u) ∧ t.fault = none) ∨
    (t.Faulted ∧ t.halted = false ∧ ∀ u, step t ≠ .next u) ∨
    (t.halted = false ∧ t.fault = none ∧ ∃ u, step t = .next u)
end

