-- ==== Sys2Proof/Laws/Encoding.lean ====
section
/-! SUPPORT. The fields of the encoder's syllables, field by field, so that no proof about decoding opens a word. -/

namespace Sys2Proof

@[simp] theorem grOf_toBits (i : GR) : grOf i.toBits = i := rfl
@[simp] theorem brOf_toBits (i : BR) : brOf i.toBits = i := rfl
@[simp] theorem toBits_grOf (f : BitVec 6) : (grOf f).toBits = f := rfl
@[simp] theorem toBits_brOf (f : BitVec 3) : (brOf f).toBits = f := rfl

/-! ### The register form -/

theorem registerWord_getLsbD (op : BitVec 7) (d a c : GR) (b : BR) (i : Nat) :
    (registerWord op d a c b).getLsbD i =
      if i < 2 then false else if i < 5 then b.toBits.getLsbD (i - 2) else if i < 11 then c.toBits.getLsbD (i - 5)
      else if i < 17 then a.toBits.getLsbD (i - 11) else if i < 23 then d.toBits.getLsbD (i - 17)
      else if i < 25 then false else op.getLsbD (i - 25) := by
  show BitVec.getLsbD (op ++ 0b00#2 ++ d.toBits ++ a.toBits ++ c.toBits ++ b.toBits ++ 0b00#2 :
    BitVec (7 + 2 + 6 + 6 + 6 + 3 + 2)) i = _
  simp only [BitVec.getLsbD_append, Nat.sub_sub]
  simp
  grind

@[simp] theorem registerWord_opcode (op : BitVec 7) (d a c : GR) (b : BR) : (registerWord op d a c b).opcode = op := by
  ext i hi; simp [Syllable.opcode, registerWord_getLsbD, ← BitVec.getLsbD_eq_getElem]; grind
@[simp] theorem registerWord_immSw (op : BitVec 7) (d a c : GR) (b : BR) : (registerWord op d a c b).immSw = 0b00#2 := by
  ext i hi; simp [Syllable.immSw, registerWord_getLsbD, ← BitVec.getLsbD_eq_getElem]; grind
@[simp] theorem registerWord_dst (op : BitVec 7) (d a c : GR) (b : BR) : (registerWord op d a c b).dst = d.toBits := by
  ext i hi; simp [Syllable.dst, registerWord_getLsbD, ← BitVec.getLsbD_eq_getElem]; grind
@[simp] theorem registerWord_src1 (op : BitVec 7) (d a c : GR) (b : BR) : (registerWord op d a c b).src1 = a.toBits := by
  ext i hi; simp [Syllable.src1, registerWord_getLsbD, ← BitVec.getLsbD_eq_getElem]; grind
@[simp] theorem registerWord_src2 (op : BitVec 7) (d a c : GR) (b : BR) : (registerWord op d a c b).src2 = c.toBits := by
  ext i hi; simp [Syllable.src2, registerWord_getLsbD, ← BitVec.getLsbD_eq_getElem]; grind
@[simp] theorem registerWord_bdst (op : BitVec 7) (d a c : GR) (b : BR) : (registerWord op d a c b).bdst = b.toBits := by
  ext i hi; simp [Syllable.bdst, registerWord_getLsbD, ← BitVec.getLsbD_eq_getElem]; grind

/-! ### The short and long immediate form -/

theorem immWord_getLsbD (op : BitVec 7) (sw : BitVec 2) (d a : GR) (v : BitVec 9) (i : Nat) :
    (immWord op sw d a v).getLsbD i =
      if i < 2 then false else if i < 11 then v.getLsbD (i - 2)
      else if i < 17 then a.toBits.getLsbD (i - 11) else if i < 23 then d.toBits.getLsbD (i - 17)
      else if i < 25 then sw.getLsbD (i - 23) else op.getLsbD (i - 25) := by
  show BitVec.getLsbD (op ++ sw ++ d.toBits ++ a.toBits ++ v ++ 0b00#2 : BitVec (7 + 2 + 6 + 6 + 9 + 2)) i = _
  simp only [BitVec.getLsbD_append, Nat.sub_sub]
  simp
  grind

@[simp] theorem immWord_opcode (op : BitVec 7) (sw : BitVec 2) (d a : GR) (v : BitVec 9) : (immWord op sw d a v).opcode = op := by
  ext i hi; simp [Syllable.opcode, immWord_getLsbD, ← BitVec.getLsbD_eq_getElem]; grind
@[simp] theorem immWord_immSw (op : BitVec 7) (sw : BitVec 2) (d a : GR) (v : BitVec 9) : (immWord op sw d a v).immSw = sw := by
  ext i hi; simp [Syllable.immSw, immWord_getLsbD, ← BitVec.getLsbD_eq_getElem]; grind
@[simp] theorem immWord_dst (op : BitVec 7) (sw : BitVec 2) (d a : GR) (v : BitVec 9) : (immWord op sw d a v).dst = d.toBits := by
  ext i hi; simp [Syllable.dst, immWord_getLsbD, ← BitVec.getLsbD_eq_getElem]; grind
@[simp] theorem immWord_src1 (op : BitVec 7) (sw : BitVec 2) (d a : GR) (v : BitVec 9) : (immWord op sw d a v).src1 = a.toBits := by
  ext i hi; simp [Syllable.src1, immWord_getLsbD, ← BitVec.getLsbD_eq_getElem]; grind
@[simp] theorem immWord_imm9 (op : BitVec 7) (sw : BitVec 2) (d a : GR) (v : BitVec 9) : (immWord op sw d a v).imm9 = v := by
  ext i hi; simp [Syllable.imm9, immWord_getLsbD, ← BitVec.getLsbD_eq_getElem]; grind

/-! ### The branch offset form -/

theorem branchWord_getLsbD (op : BitVec 7) (d : GR) (off : BitVec 12) (b : BR) (i : Nat) :
    (branchWord op d off b).getLsbD i =
      if i < 2 then false else if i < 5 then b.toBits.getLsbD (i - 2) else if i < 17 then off.getLsbD (i - 5)
      else if i < 23 then d.toBits.getLsbD (i - 17) else if i < 25 then (0b10#2).getLsbD (i - 23)
      else op.getLsbD (i - 25) := by
  show BitVec.getLsbD (op ++ 0b10#2 ++ d.toBits ++ off ++ b.toBits ++ 0b00#2 : BitVec (7 + 2 + 6 + 12 + 3 + 2)) i = _
  simp only [BitVec.getLsbD_append, Nat.sub_sub]
  simp
  grind

@[simp] theorem branchWord_opcode (op : BitVec 7) (d : GR) (off : BitVec 12) (b : BR) : (branchWord op d off b).opcode = op := by
  ext i hi; simp [Syllable.opcode, branchWord_getLsbD, ← BitVec.getLsbD_eq_getElem]; grind
@[simp] theorem branchWord_immSw (op : BitVec 7) (d : GR) (off : BitVec 12) (b : BR) : (branchWord op d off b).immSw = 0b10#2 := by
  ext i hi; simp [Syllable.immSw, branchWord_getLsbD, ← BitVec.getLsbD_eq_getElem]; grind
@[simp] theorem branchWord_dst (op : BitVec 7) (d : GR) (off : BitVec 12) (b : BR) : (branchWord op d off b).dst = d.toBits := by
  ext i hi; simp [Syllable.dst, branchWord_getLsbD, ← BitVec.getLsbD_eq_getElem]; grind
@[simp] theorem branchWord_off12 (op : BitVec 7) (d : GR) (off : BitVec 12) (b : BR) : (branchWord op d off b).off12 = off := by
  ext i hi; simp [Syllable.off12, branchWord_getLsbD, ← BitVec.getLsbD_eq_getElem]; grind
@[simp] theorem branchWord_bdst (op : BitVec 7) (d : GR) (off : BitVec 12) (b : BR) : (branchWord op d off b).bdst = b.toBits := by
  ext i hi; simp [Syllable.bdst, branchWord_getLsbD, ← BitVec.getLsbD_eq_getElem]; grind

/-! ### SYL_FOLLOW -/

theorem followWord_getLsbD (p : BitVec 23) (i : Nat) :
    (followWord p).getLsbD i =
      if i < 2 then false else if i < 25 then p.getLsbD (i - 2) else (0b0011100#7).getLsbD (i - 25) := by
  show BitVec.getLsbD (0b0011100#7 ++ p ++ 0b00#2 : BitVec (7 + 23 + 2)) i = _
  simp only [BitVec.getLsbD_append, Nat.sub_sub]
  simp
  grind

@[simp] theorem followWord_opcode (p : BitVec 23) : (followWord p).opcode = 0b0011100#7 := by
  ext i hi; simp [Syllable.opcode, followWord_getLsbD, ← BitVec.getLsbD_eq_getElem]; grind
@[simp] theorem followWord_payload (p : BitVec 23) : (followWord p).payload = p := by
  ext i hi; simp [Syllable.payload, followWord_getLsbD, ← BitVec.getLsbD_eq_getElem]; grind

/-! ### The opcode's parts (R66) -/

theorem exceptional_eq (w : Syllable) : w.exceptional = w.opcode.extractLsb' 3 4 := by
  ext i hi; simp [Syllable.exceptional, Syllable.opcode, ← BitVec.getLsbD_eq_getElem]; grind

theorem b1_eq (w : Syllable) : w.b1 = w.opcode.extractLsb' 0 3 := by
  ext i hi; simp [Syllable.b1, Syllable.opcode, ← BitVec.getLsbD_eq_getElem]; grind

theorem exceptional_append (x : BitVec 4) (y : BitVec 3) : (x ++ y).extractLsb' 3 4 = x := by
  ext i hi
  rw [BitVec.getElem_extractLsb', show (x ++ y).getLsbD (3 + i) = _ from BitVec.getLsbD_append, if_neg (by omega),
    Nat.add_sub_cancel_left, BitVec.getLsbD_eq_getElem hi]

theorem b1_append (x : BitVec 4) (y : BitVec 3) : (x ++ y).extractLsb' 0 3 = y := by
  ext i hi; simp [← BitVec.getLsbD_eq_getElem]; grind

/-! ### The layout at its default -/

@[simp] theorem layout_opcode : Config.layout.opcode = Syllable.opcode := rfl
@[simp] theorem layout_immSw : Config.layout.immSw = Syllable.immSw := rfl
@[simp] theorem layout_decode : Config.layout.decode = decodeSyllable := rfl
@[simp] theorem layout_admits : Config.layout.admits = Instr.wellFormed := rfl
@[simp] theorem layout_words : Config.layout.words = Instr.words := rfl
@[simp] theorem layout_mark : Config.layout.mark = markBundle := rfl

/-! ### Immediates -/

/-- A long immediate is put together from its two halves (R69). -/
theorem longImm_join (v : Word) : v.extractLsb' 9 23 ++ v.setWidth 9 = v := by
  ext i hi; simp [← BitVec.getLsbD_eq_getElem]; grind

/-- A displacement that fits is the value of its 12-bit field (R70). -/
theorem offset_ofInt {off : Int} (h : fitsOff12 off = true) : (BitVec.ofInt 12 off).toInt = off := by
  simp only [fitsOff12, decide_eq_true_eq] at h
  norm_num at h
  rw [BitVec.toInt_ofInt, Int.bmod_eq_of_le] <;> omega

/-- A cycle count that fits is the value of its 12-bit field (R70). -/
theorem cycles_ofNat {n : Nat} (h : fitsCycles (some n) = true) : (BitVec.ofNat 12 n).toNat = n := by
  simp only [fitsCycles, decide_eq_true_eq] at h
  simp; omega

end Sys2Proof
end

