-- ==== Sys2Proof/Laws/Memory.lean ====
section
/-! SUPPORT. The laws of data memory: what a read gives after a write, that every write keeps the canonical form, and
what the byte sequences are. -/

namespace Sys2Proof.Machine

theorem Memory.read_write (m : Memory) (a x : Nat) (b : Byte) :
    (m.write a b).read x = if x = a then some b else m.read x := by
  induction m with
  | nil => simp only [Memory.write, Memory.read]; grind
  | cons c rest ih =>
    obtain ⟨k, v⟩ := c
    simp only [Memory.write]
    split
    · simp only [Memory.read]; grind
    · split
      · simp only [Memory.read]; grind
      · simp only [Memory.read, ih]; grind

/-- Every key of a memory after a write is an old key or the written address. -/
theorem Memory.mem_write {m : Memory} {a : Nat} {b : Byte} {c : Host.Cell} (h : c ∈ m.write a b) :
    c = (a, b) ∨ c ∈ m := by
  induction m with
  | nil => simpa [Memory.write] using h
  | cons d rest ih =>
    obtain ⟨k, v⟩ := d
    simp only [Memory.write] at h
    split at h
    · simpa using h
    · split at h
      · rcases List.mem_cons.1 h with h | h
        · exact .inl h
        · exact .inr (List.mem_cons_of_mem _ h)
      · rcases List.mem_cons.1 h with h | h
        · exact .inr (h ▸ List.mem_cons_self)
        · rcases ih h with h | h
          · exact .inl h
          · exact .inr (List.mem_cons_of_mem _ h)

theorem Memory.write_wf {m : Memory} (a : Nat) (b : Byte) (h : m.wf) : (m.write a b).wf := by
  induction m with
  | nil => simp [Memory.write, Memory.wf]
  | cons d rest ih =>
    obtain ⟨k, v⟩ := d
    have h' := List.pairwise_cons.1 h
    simp only [Memory.write]
    split
    · rename_i hk
      refine List.pairwise_cons.2 ⟨fun c hc => ?_, h⟩
      rcases List.mem_cons.1 hc with hc | hc
      · subst hc; exact hk
      · exact Nat.lt_trans hk (h'.1 c hc)
    · split
      · rename_i hk; subst hk
        exact List.pairwise_cons.2 ⟨h'.1, h'.2⟩
      · rename_i h1 h2
        refine List.pairwise_cons.2 ⟨fun c hc => ?_, ih h'.2⟩
        rcases Memory.mem_write hc with hc | hc
        · subst hc; simp only; omega
        · exact h'.1 c hc

theorem Memory.writeBytes_wf {m : Memory} (a : Nat) (bs : List Byte) (h : m.wf) : (m.writeBytes a bs).wf := by
  induction bs generalizing m a with
  | nil => exact h
  | cons b bs ih => exact ih (a + 1) (Memory.write_wf a b h)

/-- The keys after bytes are stored: old keys or addresses of the stored bytes. -/
theorem Memory.mem_writeBytes {m : Memory} {a : Nat} {bs : List Byte} {c : Host.Cell}
    (h : c ∈ m.writeBytes a bs) : (a ≤ c.1 ∧ c.1 < a + bs.length) ∨ c ∈ m := by
  induction bs generalizing m a with
  | nil => exact .inr h
  | cons b bs ih =>
    rcases ih h with h | h
    · left; simp only [List.length_cons]; omega
    · rcases Memory.mem_write h with h | h
      · left; subst h; simp only [List.length_cons]; omega
      · exact .inr h

/-- One byte after bytes are stored from `a` on. -/
theorem Memory.read_writeBytes (m : Memory) (a x : Nat) (bs : List Byte) :
    (m.writeBytes a bs).read x = if a ≤ x ∧ x < a + bs.length then bs[x - a]? else m.read x := by
  induction bs generalizing m a with
  | nil =>
    have h : ¬ (a ≤ x ∧ x < a + ([] : List Byte).length) := by simp
    rw [if_neg h]; rfl
  | cons b bs ih =>
    simp only [Memory.writeBytes, ih, Memory.read_write m a x b, List.length_cons]
    by_cases hx : x = a
    · subst hx; simp
    · by_cases h1 : a + 1 ≤ x ∧ x < a + 1 + bs.length
      · have h2 : a ≤ x ∧ x < a + (bs.length + 1) := by omega
        have h3 : x - a = (x - (a + 1)) + 1 := by omega
        rw [if_pos h1, if_pos h2, h3, List.getElem?_cons_succ]
      · have h2 : ¬ (a ≤ x ∧ x < a + (bs.length + 1)) := by omega
        rw [if_neg h1, if_neg h2, if_neg hx]

/-- Bytes outside the stored ones read as before. -/
theorem Memory.read_writeBytes_outside (m : Memory) (a x : Nat) (bs : List Byte)
    (h : x < a ∨ a + bs.length ≤ x) : (m.writeBytes a bs).read x = m.read x := by
  rw [Memory.read_writeBytes, if_neg (by omega)]

/-- The bytes read are those at the addresses. -/
theorem Memory.readBytes_eq_some {m : Memory} {a n : Nat} {bs : List Byte} :
    m.readBytes a n = some bs ↔ bs.length = n ∧ ∀ i, i < n → m.read (a + i) = bs[i]? := by
  induction n generalizing a bs with
  | zero =>
    simp only [Memory.readBytes, Option.some.injEq]
    constructor
    · rintro rfl; simp
    · rintro ⟨h, -⟩; exact (List.length_eq_zero_iff.1 h).symm
  | succ n ih =>
    simp only [Memory.readBytes]
    constructor
    · intro h
      split at h
      · rename_i b cs hb hcs
        obtain ⟨hl, hc⟩ := ih.1 hcs
        cases h
        refine ⟨by simp [hl], fun i hi => ?_⟩
        cases i with
        | zero => simpa using hb
        | succ i =>
          have := hc i (by omega)
          rw [List.getElem?_cons_succ, ← this]; congr 1; omega
      · cases h
    · rintro ⟨hl, hc⟩
      cases bs with
      | nil => simp at hl
      | cons b bs =>
        have h0 := hc 0 (by omega)
        have hr : m.readBytes (a + 1) n = some bs := by
          refine ih.2 ⟨by simpa using hl, fun i hi => ?_⟩
          have := hc (i + 1) (by omega)
          rw [List.getElem?_cons_succ] at this
          rw [← this]; congr 1; omega
        simp only [Nat.add_zero, List.getElem?_cons_zero] at h0
        rw [h0, hr]

theorem splitBig_length (v : Word) (n : Nat) : (splitBig v n).length = n := by
  induction n with
  | zero => rfl
  | succ n ih => simp [splitBig, ih]

theorem splitBytes_length (e : Params.Endian) (v : Word) (n : Nat) : (splitBytes e v n).length = n := by
  cases e <;> simp [splitBytes, splitBig_length]

/-- Byte `i` of the big-endian split is `v[8(n-i)-1 : 8(n-1-i)]`. -/
theorem splitBig_getElem? (v : Word) (n i : Nat) (h : i < n) :
    (splitBig v n)[i]? = some (v.extractLsb' (8 * (n - 1 - i)) 8) := by
  induction n generalizing i with
  | zero => omega
  | succ n ih =>
    cases i with
    | zero => simp [splitBig]
    | succ i =>
      rw [splitBig, List.getElem?_cons_succ, ih i (by omega)]
      congr 2; omega

/-- MISALIGNED is a fault: an access reaches its own address, and one off its alignment faults. -/
@[simp] theorem accessAddr_eq (a : Word) (w : Width) : accessAddr a w = a := rfl
@[simp] theorem misalignedFaults_eq (a : Word) (w : Width) : misalignedFaults a w = (a.toNat % w.bytes != 0) := rfl

/-- What a store does, once: the checks passed, the listed bytes are the low bytes of the value. -/
theorem memWrite_eq_ok {s t : State} {a : Word} {w : Width} {v : Word} (h : s.memWrite a w v = .ok t) :
    s.accessFault a w = none ∧
    t = { s with dmem := s.dmem.writeBytes a.toNat (splitBytes Params.endian v w.bytes) } := by
  unfold State.memWrite at h
  split at h
  · cases h
  · rename_i hf; exact ⟨hf, by cases h; rfl⟩

/-- What a load does, once: the checks passed and every byte has a value. -/
theorem memRead_eq_ok {s : State} {a : Word} {w : Width} {v : Word} (h : s.memRead a w = .ok v) :
    s.accessFault a w = none ∧
    ∃ bs, s.dmem.readBytes a.toNat w.bytes = some bs ∧ v = joinBytes Params.endian bs := by
  unfold State.memRead at h
  split at h
  · cases h
  · rename_i hf
    split at h
    · rename_i bs hb; exact ⟨hf, bs, hb, by cases h; rfl⟩
    · cases h

/-- An access that raises nothing is aligned and inside data memory. -/
theorem accessFault_eq_none {s : State} {a : Word} {w : Width} :
    s.accessFault a w = none ↔ a.toNat % w.bytes = 0 ∧ s.inDmem a w = true := by
  unfold State.accessFault
  by_cases h : a.toNat % w.bytes = 0 <;> by_cases h2 : s.inDmem a w <;> simp [h, h2]

end Sys2Proof.Machine
end

