-- ==== Sys2Proof/Laws/State.lean ====
section
/-! SUPPORT. One lemma per field per named update of the state, so that no later proof unfolds a record update, and the
read-after-write laws of the register files. -/

namespace Sys2Proof.Machine

/-! ### raise, advance, jump -/

@[simp] theorem State.raise_gr (s : State) (c : Cause) : (s.raise c).gr = s.gr := rfl
@[simp] theorem State.raise_grWritten (s : State) (c : Cause) : (s.raise c).grWritten = s.grWritten := rfl
@[simp] theorem State.raise_br (s : State) (c : Cause) : (s.raise c).br = s.br := rfl
@[simp] theorem State.raise_brWritten (s : State) (c : Cause) : (s.raise c).brWritten = s.brWritten := rfl
@[simp] theorem State.raise_pc (s : State) (c : Cause) : (s.raise c).pc = s.pc := rfl
@[simp] theorem State.raise_imem (s : State) (c : Cause) : (s.raise c).imem = s.imem := rfl
@[simp] theorem State.raise_dmemBytes (s : State) (c : Cause) : (s.raise c).dmemBytes = s.dmemBytes := rfl
@[simp] theorem State.raise_dmem (s : State) (c : Cause) : (s.raise c).dmem = s.dmem := rfl
@[simp] theorem State.raise_halted (s : State) (c : Cause) : (s.raise c).halted = s.halted := rfl
@[simp] theorem State.raise_fault (s : State) (c : Cause) : (s.raise c).fault = some c := rfl
@[simp] theorem State.raise_inFlight (s : State) (c : Cause) : (s.raise c).inFlight = s.inFlight := rfl
@[simp] theorem State.raise_draws (s : State) (c : Cause) : (s.raise c).draws = s.draws := rfl

@[simp] theorem State.advance_gr (s : State) : (s.advance).gr = s.gr := rfl
@[simp] theorem State.advance_grWritten (s : State) : (s.advance).grWritten = s.grWritten := rfl
@[simp] theorem State.advance_br (s : State) : (s.advance).br = s.br := rfl
@[simp] theorem State.advance_brWritten (s : State) : (s.advance).brWritten = s.brWritten := rfl
@[simp] theorem State.advance_pc (s : State) : (s.advance).pc = s.pc + 1 := rfl
@[simp] theorem State.advance_imem (s : State) : (s.advance).imem = s.imem := rfl
@[simp] theorem State.advance_dmemBytes (s : State) : (s.advance).dmemBytes = s.dmemBytes := rfl
@[simp] theorem State.advance_dmem (s : State) : (s.advance).dmem = s.dmem := rfl
@[simp] theorem State.advance_halted (s : State) : (s.advance).halted = s.halted := rfl
@[simp] theorem State.advance_fault (s : State) : (s.advance).fault = s.fault := rfl
@[simp] theorem State.advance_inFlight (s : State) : (s.advance).inFlight = s.inFlight := rfl
@[simp] theorem State.advance_draws (s : State) : (s.advance).draws = s.draws := rfl

@[simp] theorem State.jump_gr (s : State) (x : Int) : (s.jump x).gr = s.gr := rfl
@[simp] theorem State.jump_grWritten (s : State) (x : Int) : (s.jump x).grWritten = s.grWritten := rfl
@[simp] theorem State.jump_br (s : State) (x : Int) : (s.jump x).br = s.br := rfl
@[simp] theorem State.jump_brWritten (s : State) (x : Int) : (s.jump x).brWritten = s.brWritten := rfl
@[simp] theorem State.jump_pc (s : State) (x : Int) : (s.jump x).pc = x := rfl
@[simp] theorem State.jump_imem (s : State) (x : Int) : (s.jump x).imem = s.imem := rfl
@[simp] theorem State.jump_dmemBytes (s : State) (x : Int) : (s.jump x).dmemBytes = s.dmemBytes := rfl
@[simp] theorem State.jump_dmem (s : State) (x : Int) : (s.jump x).dmem = s.dmem := rfl
@[simp] theorem State.jump_halted (s : State) (x : Int) : (s.jump x).halted = s.halted := rfl
@[simp] theorem State.jump_fault (s : State) (x : Int) : (s.jump x).fault = s.fault := rfl
@[simp] theorem State.jump_inFlight (s : State) (x : Int) : (s.jump x).inFlight = s.inFlight := rfl
@[simp] theorem State.jump_draws (s : State) (x : Int) : (s.jump x).draws = s.draws := rfl

/-! ### writeGr, writeBr, writeLr, writeTruth, drawTo -/

@[simp] theorem State.writeGr_br (s : State) (i : GR) (v : Word) : (s.writeGr i v).br = s.br := by
  unfold State.writeGr; split <;> rfl
@[simp] theorem State.writeGr_brWritten (s : State) (i : GR) (v : Word) : (s.writeGr i v).brWritten = s.brWritten := by
  unfold State.writeGr; split <;> rfl
@[simp] theorem State.writeGr_pc (s : State) (i : GR) (v : Word) : (s.writeGr i v).pc = s.pc := by
  unfold State.writeGr; split <;> rfl
@[simp] theorem State.writeGr_imem (s : State) (i : GR) (v : Word) : (s.writeGr i v).imem = s.imem := by
  unfold State.writeGr; split <;> rfl
@[simp] theorem State.writeGr_dmemBytes (s : State) (i : GR) (v : Word) : (s.writeGr i v).dmemBytes = s.dmemBytes := by
  unfold State.writeGr; split <;> rfl
@[simp] theorem State.writeGr_dmem (s : State) (i : GR) (v : Word) : (s.writeGr i v).dmem = s.dmem := by
  unfold State.writeGr; split <;> rfl
@[simp] theorem State.writeGr_halted (s : State) (i : GR) (v : Word) : (s.writeGr i v).halted = s.halted := by
  unfold State.writeGr; split <;> rfl
@[simp] theorem State.writeGr_fault (s : State) (i : GR) (v : Word) : (s.writeGr i v).fault = s.fault := by
  unfold State.writeGr; split <;> rfl
@[simp] theorem State.writeGr_inFlight (s : State) (i : GR) (v : Word) : (s.writeGr i v).inFlight = s.inFlight := by
  unfold State.writeGr; split <;> rfl
@[simp] theorem State.writeGr_draws (s : State) (i : GR) (v : Word) : (s.writeGr i v).draws = s.draws := by
  unfold State.writeGr; split <;> rfl

@[simp] theorem State.writeBr_gr (s : State) (i : BR) (v : Bool) : (s.writeBr i v).gr = s.gr := rfl
@[simp] theorem State.writeBr_grWritten (s : State) (i : BR) (v : Bool) : (s.writeBr i v).grWritten = s.grWritten := rfl
@[simp] theorem State.writeBr_br (s : State) (i : BR) (v : Bool) : (s.writeBr i v).br = s.br.set i v := rfl
@[simp] theorem State.writeBr_brWritten (s : State) (i : BR) (v : Bool) : (s.writeBr i v).brWritten = s.brWritten.set i true := rfl
@[simp] theorem State.writeBr_pc (s : State) (i : BR) (v : Bool) : (s.writeBr i v).pc = s.pc := rfl
@[simp] theorem State.writeBr_imem (s : State) (i : BR) (v : Bool) : (s.writeBr i v).imem = s.imem := rfl
@[simp] theorem State.writeBr_dmemBytes (s : State) (i : BR) (v : Bool) : (s.writeBr i v).dmemBytes = s.dmemBytes := rfl
@[simp] theorem State.writeBr_dmem (s : State) (i : BR) (v : Bool) : (s.writeBr i v).dmem = s.dmem := rfl
@[simp] theorem State.writeBr_halted (s : State) (i : BR) (v : Bool) : (s.writeBr i v).halted = s.halted := rfl
@[simp] theorem State.writeBr_fault (s : State) (i : BR) (v : Bool) : (s.writeBr i v).fault = s.fault := rfl
@[simp] theorem State.writeBr_inFlight (s : State) (i : BR) (v : Bool) : (s.writeBr i v).inFlight = s.inFlight := rfl
@[simp] theorem State.writeBr_draws (s : State) (i : BR) (v : Bool) : (s.writeBr i v).draws = s.draws := rfl

@[simp] theorem State.writeLr_br (s : State) (v : Word) : (s.writeLr v).br = s.br := by
  simp [State.writeLr]
@[simp] theorem State.writeLr_brWritten (s : State) (v : Word) : (s.writeLr v).brWritten = s.brWritten := by
  simp [State.writeLr]
@[simp] theorem State.writeLr_pc (s : State) (v : Word) : (s.writeLr v).pc = s.pc := by
  simp [State.writeLr]
@[simp] theorem State.writeLr_imem (s : State) (v : Word) : (s.writeLr v).imem = s.imem := by
  simp [State.writeLr]
@[simp] theorem State.writeLr_dmemBytes (s : State) (v : Word) : (s.writeLr v).dmemBytes = s.dmemBytes := by
  simp [State.writeLr]
@[simp] theorem State.writeLr_dmem (s : State) (v : Word) : (s.writeLr v).dmem = s.dmem := by
  simp [State.writeLr]
@[simp] theorem State.writeLr_halted (s : State) (v : Word) : (s.writeLr v).halted = s.halted := by
  simp [State.writeLr]
@[simp] theorem State.writeLr_fault (s : State) (v : Word) : (s.writeLr v).fault = s.fault := by
  simp [State.writeLr]
@[simp] theorem State.writeLr_inFlight (s : State) (v : Word) : (s.writeLr v).inFlight = s.inFlight := by
  simp [State.writeLr]
@[simp] theorem State.writeLr_draws (s : State) (v : Word) : (s.writeLr v).draws = s.draws := by
  simp [State.writeLr]

@[simp] theorem State.writeTruth_pc (s : State) (d : Target) (c : Bool) : (s.writeTruth d c).pc = s.pc := by
  cases d <;> simp [State.writeTruth]
@[simp] theorem State.writeTruth_imem (s : State) (d : Target) (c : Bool) : (s.writeTruth d c).imem = s.imem := by
  cases d <;> simp [State.writeTruth]
@[simp] theorem State.writeTruth_dmemBytes (s : State) (d : Target) (c : Bool) : (s.writeTruth d c).dmemBytes = s.dmemBytes := by
  cases d <;> simp [State.writeTruth]
@[simp] theorem State.writeTruth_dmem (s : State) (d : Target) (c : Bool) : (s.writeTruth d c).dmem = s.dmem := by
  cases d <;> simp [State.writeTruth]
@[simp] theorem State.writeTruth_halted (s : State) (d : Target) (c : Bool) : (s.writeTruth d c).halted = s.halted := by
  cases d <;> simp [State.writeTruth]
@[simp] theorem State.writeTruth_fault (s : State) (d : Target) (c : Bool) : (s.writeTruth d c).fault = s.fault := by
  cases d <;> simp [State.writeTruth]
@[simp] theorem State.writeTruth_inFlight (s : State) (d : Target) (c : Bool) : (s.writeTruth d c).inFlight = s.inFlight := by
  cases d <;> simp [State.writeTruth]
@[simp] theorem State.writeTruth_draws (s : State) (d : Target) (c : Bool) : (s.writeTruth d c).draws = s.draws := by
  cases d <;> simp [State.writeTruth]

@[simp] theorem State.drawTo_gr (s : State) (t : GR) : (s.drawTo t).gr = (s.writeGr t (Config.draw32 s.draws t)).gr := rfl
@[simp] theorem State.drawTo_grWritten (s : State) (t : GR) : (s.drawTo t).grWritten = (s.writeGr t (Config.draw32 s.draws t)).grWritten := rfl
@[simp] theorem State.drawTo_br (s : State) (t : GR) : (s.drawTo t).br = s.br := by
  simp [State.drawTo]
@[simp] theorem State.drawTo_brWritten (s : State) (t : GR) : (s.drawTo t).brWritten = s.brWritten := by
  simp [State.drawTo]
@[simp] theorem State.drawTo_pc (s : State) (t : GR) : (s.drawTo t).pc = s.pc := by
  simp [State.drawTo]
@[simp] theorem State.drawTo_imem (s : State) (t : GR) : (s.drawTo t).imem = s.imem := by
  simp [State.drawTo]
@[simp] theorem State.drawTo_dmemBytes (s : State) (t : GR) : (s.drawTo t).dmemBytes = s.dmemBytes := by
  simp [State.drawTo]
@[simp] theorem State.drawTo_dmem (s : State) (t : GR) : (s.drawTo t).dmem = s.dmem := by
  simp [State.drawTo]
@[simp] theorem State.drawTo_halted (s : State) (t : GR) : (s.drawTo t).halted = s.halted := by
  simp [State.drawTo]
@[simp] theorem State.drawTo_fault (s : State) (t : GR) : (s.drawTo t).fault = s.fault := by
  simp [State.drawTo]
@[simp] theorem State.drawTo_inFlight (s : State) (t : GR) : (s.drawTo t).inFlight = s.inFlight := by
  simp [State.drawTo]
@[simp] theorem State.drawTo_draws (s : State) (t : GR) : (s.drawTo t).draws = s.draws + 1 := rfl

/-! ### Register files: what a read gives after a write -/

theorem isZeroReg_iff (i : GR) : isZeroReg i = true ↔ i = 0 := by simp [isZeroReg, Params.zeroReg]

theorem readGr_zero (s : State) : s.readGr 0 = 0 := by simp [State.readGr, isZeroReg, Params.zeroReg]

theorem writeGr_zero (s : State) (v : Word) : s.writeGr 0 v = s := by
  simp [State.writeGr, isZeroReg, Params.zeroReg]

theorem readGr_of_ne_zero (s : State) {i : GR} (h : i ≠ 0) : s.readGr i = s.gr[i] := by
  simp [State.readGr, isZeroReg, Params.zeroReg, h]

theorem writeGr_of_ne_zero (s : State) {i : GR} (h : i ≠ 0) (v : Word) :
    s.writeGr i v = { s with gr := s.gr.set i v, grWritten := s.grWritten.set i true } := by
  simp [State.writeGr, isZeroReg, Params.zeroReg, h]

/-- The cell of GR `k` after a write of GR `i`. -/
theorem writeGr_getElem (s : State) (i k : GR) (v : Word) :
    (s.writeGr i v).gr[k] = if k = i ∧ i ≠ 0 then v else s.gr[k] := by
  by_cases h : i = 0
  · simp [h, writeGr_zero]
  · by_cases hk : k = i
    · subst hk; simp [writeGr_of_ne_zero s h, h]
    · have hne : (i : Nat) ≠ (k : Nat) := fun e => hk (Fin.ext e.symm)
      simp [writeGr_of_ne_zero s h, hk, hne]

/-- The `written` flag of GR `k` after a write of GR `i`. -/
theorem writeGr_written_getElem (s : State) (i k : GR) (v : Word) :
    (s.writeGr i v).grWritten[k] = if k = i ∧ i ≠ 0 then true else s.grWritten[k] := by
  by_cases h : i = 0
  · simp [h, writeGr_zero]
  · by_cases hk : k = i
    · subst hk; simp [writeGr_of_ne_zero s h, h]
    · have hne : (i : Nat) ≠ (k : Nat) := fun e => hk (Fin.ext e.symm)
      simp [writeGr_of_ne_zero s h, hk, hne]

/-- `r[k]` after `r[i] <- v`: `$r0.0` stays zero. -/
theorem readGr_writeGr (s : State) (i k : GR) (v : Word) :
    (s.writeGr i v).readGr k = if k = i ∧ i ≠ 0 then v else s.readGr k := by
  by_cases hk : k = 0
  · subst hk; rw [readGr_zero, readGr_zero]; split
    · rename_i h; exact absurd h.1.symm h.2
    · rfl
  · rw [readGr_of_ne_zero _ hk, readGr_of_ne_zero _ hk, writeGr_getElem]

theorem writeBr_getElem (s : State) (i k : BR) (v : Bool) :
    (s.writeBr i v).br[k] = if k = i then v else s.br[k] := by
  by_cases hk : k = i
  · subst hk; simp
  · have hne : (i : Nat) ≠ (k : Nat) := fun e => hk (Fin.ext e.symm)
    simp [hk, hne]

theorem writeBr_written_getElem (s : State) (i k : BR) (v : Bool) :
    (s.writeBr i v).brWritten[k] = if k = i then true else s.brWritten[k] := by
  by_cases hk : k = i
  · subst hk; simp
  · have hne : (i : Nat) ≠ (k : Nat) := fun e => hk (Fin.ext e.symm)
    simp [hk, hne]

end Sys2Proof.Machine
end

