-- ==== Sys2Proof/Laws/Ops.lean ====
section
/-! SUPPORT. What the shared operations can do, said once each: reading registers (UnwrittenRead), and the shapes of
the operations of one type. Later proofs cite these and unfold no shared operation. -/

namespace Sys2Proof.Machine

/-! ### Reading registers -/

theorem lowestUnwrittenGr_eq_none {s : State} {grs : List GR} :
    s.lowestUnwrittenGr grs = none ↔ ∀ i ∈ grs, s.grReady i = true := by
  induction grs with
  | nil => simp [State.lowestUnwrittenGr]
  | cons i rest ih =>
    simp only [State.lowestUnwrittenGr, List.forall_mem_cons]
    cases h : s.grReady i
    · simp only [Bool.false_eq_true, if_false, false_and, iff_false]
      split <;> simp
    · simp [ih]

/-- The reported GR is read, unwritten, and the lowest such. -/
theorem lowestUnwrittenGr_eq_some {s : State} {grs : List GR} {i : GR} (h : s.lowestUnwrittenGr grs = some i) :
    i ∈ grs ∧ s.grReady i = false ∧ ∀ j ∈ grs, s.grReady j = false → i ≤ j := by
  induction grs generalizing i with
  | nil => cases h
  | cons k rest ih =>
    simp only [State.lowestUnwrittenGr] at h
    cases hk : s.grReady k
    · rw [hk] at h
      simp only [Bool.false_eq_true, if_false] at h
      split at h
      · rename_i hn
        cases h
        refine ⟨List.mem_cons_self, hk, fun j hj hr => ?_⟩
        rcases List.mem_cons.1 hj with rfl | hj
        · exact le_refl _
        · rw [lowestUnwrittenGr_eq_none.1 hn j hj] at hr; cases hr
      · rename_i m hm
        obtain ⟨hmem, hr, hle⟩ := ih hm
        cases h
        refine ⟨?_, ?_, fun j hj hj' => ?_⟩
        · rcases min_choice k m with e | e <;> rw [e]
          · exact List.mem_cons_self
          · exact List.mem_cons_of_mem _ hmem
        · rcases min_choice k m with e | e <;> rw [e] <;> assumption
        · rcases List.mem_cons.1 hj with rfl | hj
          · exact min_le_left _ _
          · exact le_trans (min_le_right _ _) (hle j hj hj')
    · rw [hk, if_pos rfl] at h
      obtain ⟨hmem, hr, hle⟩ := ih h
      refine ⟨List.mem_cons_of_mem _ hmem, hr, fun j hj hj' => ?_⟩
      rcases List.mem_cons.1 hj with rfl | hj
      · rw [hk] at hj'; cases hj'
      · exact hle j hj hj'

theorem lowestUnwrittenBr_eq_none {s : State} {brs : List BR} :
    s.lowestUnwrittenBr brs = none ↔ ∀ i ∈ brs, s.brReady i = true := by
  induction brs with
  | nil => simp [State.lowestUnwrittenBr]
  | cons i rest ih =>
    simp only [State.lowestUnwrittenBr, List.forall_mem_cons]
    cases h : s.brReady i
    · simp only [Bool.false_eq_true, if_false, false_and, iff_false]
      split <;> simp
    · simp [ih]

/-- No `UnwrittenRead` exactly when every register read has been written. -/
theorem unwritten_eq_none {s : State} {grs : List GR} {brs : List BR} :
    s.unwritten grs brs = none ↔ (∀ i ∈ grs, s.grReady i = true) ∧ ∀ i ∈ brs, s.brReady i = true := by
  rw [← lowestUnwrittenGr_eq_none, ← lowestUnwrittenBr_eq_none]
  unfold State.unwritten
  cases s.lowestUnwrittenGr grs <;> cases s.lowestUnwrittenBr brs <;> simp

/-- Everything `reading` can do. -/
theorem reading_cases (grs : List GR) (brs : List BR) (s : State) (k : Result) :
    (s.unwritten grs brs = none ∧ reading grs brs s k = k) ∨
    ∃ p, s.unwritten grs brs = some p ∧ reading grs brs s k = .next (s.raise (.unwrittenRead p)) := by
  unfold reading
  cases s.unwritten grs brs <;> simp

/-- With every register written, `reading` goes on. -/
theorem reading_of_ready {grs : List GR} {brs : List BR} {s : State} (k : Result)
    (hg : ∀ i ∈ grs, s.grReady i = true) (hb : ∀ i ∈ brs, s.brReady i = true) : reading grs brs s k = k := by
  unfold reading; rw [unwritten_eq_none.2 ⟨hg, hb⟩]

theorem reading_next {grs : List GR} {brs : List BR} {s s' : State} {k : Result}
    (h : reading grs brs s k = .next s') : (∃ p, s' = s.raise (.unwrittenRead p)) ∨ k = .next s' := by
  rcases reading_cases grs brs s k with ⟨-, e⟩ | ⟨p, -, e⟩
  · exact .inr (e ▸ h)
  · rw [e] at h; cases h; exact .inl ⟨p, rfl⟩

/-! ### Parameters at their defaults -/

/-- ROP is empty. -/
@[simp] theorem rop_eq (op : BitVec 7) : Params.rop op = none := rfl
@[simp] theorem ropAccess_eq (op : BitVec 7) : ropAccess op = {} := rfl
@[simp] theorem reservedOp_eq (op : BitVec 7) (s : State) : reservedOp op s = .next (s.raise (.illegalOpcode 0 op)) := rfl
/-- PC_UNIT is a bundle. -/
@[simp] theorem pcStep_eq : Params.pcStep = 1 := rfl
@[simp] theorem relTarget_eq (s : State) (off : Int) : s.relTarget off = s.pc + off := by
  simp [State.relTarget, Params.branchBase]
@[simp] theorem linkValue_eq (s : State) : s.linkValue = BitVec.ofInt _ (s.pc + 1) := rfl

/-! ### The shapes of operations -/

theorem binaryOp_next {t s1 : GR} {a : Src2} {f : Word → Word → Word} {s s' : State}
    (h : binaryOp t s1 a f s = .next s') :
    (∃ c, s' = s.raise c) ∨ s' = (s.writeGr t (f (s.readGr s1) (s.src2 a))).advance := by
  rcases reading_next h with ⟨p, e⟩ | e
  · exact .inl ⟨_, e⟩
  · cases e; exact .inr rfl

/-- The parameter SHIFT_OOB is a draw for every shift. -/
@[simp] theorem shiftOut_eq (s : State) (op : Params.Shift) (t : GR) (v amount : Word) :
    s.shiftOut op t v amount = s.drawTo t := rfl

theorem shiftOp_next {op : Params.Shift} {t s1 : GR} {a : Src2} {f : Word → Nat → Word} {s s' : State}
    (h : shiftOp op t s1 a f s = .next s') :
    (∃ c, s' = s.raise c) ∨
    ((s.src2 a).toNat ≤ 31 ∧ s' = (s.writeGr t (f (s.readGr s1) (s.src2 a).toNat)).advance) ∨
    (31 < (s.src2 a).toNat ∧ s' = (s.drawTo t).advance) := by
  rcases reading_next h with ⟨p, e⟩ | e
  · exact .inl ⟨_, e⟩
  · split at e <;> rename_i hn <;> cases e
    · exact .inr (.inl ⟨hn, rfl⟩)
    · exact .inr (.inr ⟨by omega, rfl⟩)

theorem unaryOp_next {t s1 : GR} {f : Word → Word} {s s' : State} (h : unaryOp t s1 f s = .next s') :
    (∃ c, s' = s.raise c) ∨ s' = (s.writeGr t (f (s.readGr s1))).advance := by
  rcases reading_next h with ⟨p, e⟩ | e
  · exact .inl ⟨_, e⟩
  · cases e; exact .inr rfl

theorem selectOp_next {t : GR} {b1 : BR} {s1 : GR} {a : Src2} {f : Bool → Word → Word → Word} {s s' : State}
    (h : selectOp t b1 s1 a f s = .next s') :
    (∃ c, s' = s.raise c) ∨ s' = (s.writeGr t (f (s.readBr b1) (s.readGr s1) (s.src2 a))).advance := by
  rcases reading_next h with ⟨p, e⟩ | e
  · exact .inl ⟨_, e⟩
  · cases e; exact .inr rfl

theorem carryOp_next {t : GR} {b b1 : BR} {s1 s2 : GR} {v : Bool → Word → Word → Word}
    {c : Bool → Word → Word → Bool} {s s' : State} (h : carryOp t b b1 s1 s2 v c s = .next s') :
    (∃ c, s' = s.raise c) ∨
    s' = ((s.writeGr t (v (s.readBr b1) (s.readGr s1) (s.readGr s2))).writeBr b
      (c (s.readBr b1) (s.readGr s1) (s.readGr s2))).advance := by
  rcases reading_next h with ⟨p, e⟩ | e
  · exact .inl ⟨_, e⟩
  · cases e; exact .inr rfl

theorem truthOp_next {d : Target} {s1 : GR} {a : Src2} {c : Word → Word → Bool} {s s' : State}
    (h : truthOp d s1 a c s = .next s') :
    (∃ c, s' = s.raise c) ∨ s' = (s.writeTruth d (c (s.readGr s1) (s.src2 a))).advance := by
  rcases reading_next h with ⟨p, e⟩ | e
  · exact .inl ⟨_, e⟩
  · cases e; exact .inr rfl

theorem loadOp_next {w : Width} {ext : Word → Word} {t : GR} {off : Word} {s1 : GR} {s s' : State}
    (h : loadOp w ext t off s1 s = .next s') :
    (∃ c, s' = s.raise c) ∨
    ∃ v, s.memRead (s.ea s1 off) w = .ok v ∧ s' = (s.writeGr t (ext v)).advance := by
  rcases reading_next h with ⟨p, e⟩ | e
  · exact .inl ⟨_, e⟩
  · split at e
    · cases e; exact .inl ⟨_, rfl⟩
    · rename_i v hv; cases e; exact .inr ⟨v, hv, rfl⟩

theorem storeOp_next {w : Width} {off : Word} {s1 s2 : GR} {s s' : State}
    (h : storeOp w off s1 s2 s = .next s') :
    (∃ c, s' = s.raise c) ∨
    ∃ m, s.memWrite (s.ea s1 off) w (s.readGr s2) = .ok m ∧ s' = m.advance := by
  rcases reading_next h with ⟨p, e⟩ | e
  · exact .inl ⟨_, e⟩
  · split at e
    · cases e; exact .inl ⟨_, rfl⟩
    · rename_i m hm; cases e; exact .inr ⟨m, hm, rfl⟩

theorem branchOp_next {b : BR} {off : Int} {taken : Bool → Bool} {s s' : State}
    (h : branchOp b off taken s = .next s') :
    (∃ c, s' = s.raise c) ∨ s' = s.jump (s.relTarget off) ∨ s' = s.advance := by
  rcases reading_next h with ⟨p, e⟩ | e
  · exact .inl ⟨_, e⟩
  · split at e <;> cases e
    · exact .inr (.inl rfl)
    · exact .inr (.inr rfl)

end Sys2Proof.Machine
end

