-- ==== Sys2Proof/Laws/Bundle.lean ====
section
/-! SUPPORT. What the steps of a bundle can do, said once each, with the parameters PC_UNIT and LATENCY at their
defaults. -/

namespace Sys2Proof.Machine

/-! ### Fetch and placing, with PC_UNIT a bundle -/

theorem fetch_eq (s : State) :
    s.fetch =
      if s.pc < 0 then .error (.imemRange s.pc)
      else
        match s.imem[s.pc.toNat]? with
        | some b => .ok b
        | none => .error (.imemRange s.pc) := by
  simp [State.fetch] <;> rfl

theorem placeBundle_eq (s : State) (b : Bundle) :
    s.placeBundle b =
      { s with pc := max s.pc 0, imem := placeAt s.imem s.pc.toNat b, halted := false, fault := none } := by
  have h : (max s.pc 0).toNat = s.pc.toNat := by omega
  simp [State.placeBundle, h]

/-! ### A result becoming visible: `perform`, one lemma per field -/

@[simp] theorem State.perform_gr (s : State) (i : GR) (v : Word) : s.perform (.gr i v) = s.writeGr i v := rfl
@[simp] theorem State.perform_br (s : State) (i : BR) (c : Bool) : s.perform (.br i c) = s.writeBr i c := rfl
@[simp] theorem State.perform_dmem (s : State) (a : Nat) (bs : List Byte) :
    s.perform (.dmem a bs) = { s with dmem := s.dmem.writeBytes a bs } := rfl

/-- What no result changes. -/
theorem State.perform_keeps (s : State) (w : Write) :
    (s.perform w).pc = s.pc ∧ (s.perform w).imem = s.imem ∧ (s.perform w).dmemBytes = s.dmemBytes ∧
    (s.perform w).halted = s.halted ∧ (s.perform w).fault = s.fault ∧ (s.perform w).inFlight = s.inFlight ∧
    (s.perform w).draws = s.draws := by
  cases w <;> simp

theorem performAll_keeps (ws : List Write) (s : State) :
    (ws.foldl State.perform s).pc = s.pc ∧ (ws.foldl State.perform s).imem = s.imem ∧
    (ws.foldl State.perform s).dmemBytes = s.dmemBytes ∧ (ws.foldl State.perform s).halted = s.halted ∧
    (ws.foldl State.perform s).fault = s.fault ∧ (ws.foldl State.perform s).inFlight = s.inFlight ∧
    (ws.foldl State.perform s).draws = s.draws := by
  induction ws generalizing s with
  | nil => simp
  | cons w ws ih =>
    obtain ⟨h1, h2, h3, h4, h5, h6, h7⟩ := s.perform_keeps w
    simpa only [List.foldl_cons, h1, h2, h3, h4, h5, h6, h7] using ih (s.perform w)

/-! ### LATENCY 1: nothing is on its way -/

@[simp] theorem latency_eq (i : Instr) : (Params.latency i).val = 1 := rfl

/-- All states have the same results on their way: none. -/
theorem inFlight_eq (v w : Vector (List Write) Config.inFlight) : v = w :=
  Vector.ext fun k hk => absurd hk (Nat.not_lt_zero k)

/-- No result falls due. -/
@[simp] theorem State.land_eq (s : State) : s.land = s := by
  have h : s.inFlight.toList = [] := List.length_eq_zero_iff.1 (by simp)
  unfold State.land
  rw [h]
  exact congrArg (fun v => { s with inFlight := v }) (inFlight_eq _ s.inFlight)

/-- The next bundle sees the results. -/
@[simp] theorem State.schedule_one (s : State) (ws : List Write) : s.schedule 1 ws = ws.foldl State.perform s := rfl

/-! ### The results of one operation -/

@[simp] theorem commit_pc (i : Instr) (s t acc : State) :
    (commit i s t acc).pc = if takes i s t then t.pc else acc.pc := rfl

theorem takes_iff {i : Instr} {s t : State} :
    takes i s t = true ↔ (access i).control = true ∧ t.pc ≠ s.pc + 1 := by simp [takes]

/-- With no target of another control transfer, the pc is the outcome's. -/
theorem commit_pc_of_control {i : Instr} {s t acc : State} (hi : (access i).control = true)
    (hp : acc.pc = s.pc + 1) : (commit i s t acc).pc = t.pc := by
  rw [commit_pc]
  by_cases h : t.pc = s.pc + 1
  · rw [if_neg (by simp [takes_iff, h]), hp, h]
  · rw [if_pos (takes_iff.2 ⟨hi, h⟩)]

/-- An operation that is no control transfer leaves the pc. -/
theorem commit_pc_of_not_control {i : Instr} {s t acc : State} (hi : (access i).control = false) :
    (commit i s t acc).pc = acc.pc := by
  rw [commit_pc, if_neg (by simp [takes, hi])]
@[simp] theorem commit_halted (i : Instr) (s t acc : State) :
    (commit i s t acc).halted = (acc.halted || t.halted) := rfl
@[simp] theorem commit_draws (i : Instr) (s t acc : State) : (commit i s t acc).draws = max acc.draws t.draws := rfl
@[simp] theorem commit_imem (i : Instr) (s t acc : State) : (commit i s t acc).imem = acc.imem :=
  (performAll_keeps _ acc).2.1
@[simp] theorem commit_dmemBytes (i : Instr) (s t acc : State) : (commit i s t acc).dmemBytes = acc.dmemBytes :=
  (performAll_keeps _ acc).2.2.1
@[simp] theorem commit_fault (i : Instr) (s t acc : State) : (commit i s t acc).fault = acc.fault :=
  (performAll_keeps _ acc).2.2.2.2.1
@[simp] theorem commit_inFlight (i : Instr) (s t acc : State) : (commit i s t acc).inFlight = acc.inFlight :=
  inFlight_eq _ _

/-- Writes of GR, in order, with the values of `t`. -/
theorem performGrs (ks : List GR) (t s : State) (k : GR) :
    ((ks.map fun k => Write.gr k t.gr[k]).foldl State.perform s).gr[k] =
        (if k ∈ ks ∧ k ≠ 0 then t.gr[k] else s.gr[k]) ∧
    ((ks.map fun k => Write.gr k t.gr[k]).foldl State.perform s).grWritten[k] =
        (if k ∈ ks ∧ k ≠ 0 then true else s.grWritten[k]) ∧
    ((ks.map fun k => Write.gr k t.gr[k]).foldl State.perform s).br = s.br ∧
    ((ks.map fun k => Write.gr k t.gr[k]).foldl State.perform s).brWritten = s.brWritten ∧
    ((ks.map fun k => Write.gr k t.gr[k]).foldl State.perform s).dmem = s.dmem := by
  induction ks generalizing s with
  | nil => simp
  | cons j ks ih =>
    obtain ⟨h1, h2, h3, h4, h5⟩ := ih (s.writeGr j t.gr[j])
    simp only [List.map_cons, List.foldl_cons, State.perform_gr, h1, h2, h3, h4, h5, State.writeGr_br,
      State.writeGr_brWritten, State.writeGr_dmem, writeGr_getElem, writeGr_written_getElem, List.mem_cons, and_self,
      and_true]
    by_cases hk : k = j
    · subst hk; by_cases h0 : k = 0 <;> simp [h0]
    · simp [hk]

/-- Writes of BR, in order, with the values of `t`. -/
theorem performBrs (ks : List BR) (t s : State) (k : BR) :
    ((ks.map fun k => Write.br k t.br[k]).foldl State.perform s).br[k] = (if k ∈ ks then t.br[k] else s.br[k]) ∧
    ((ks.map fun k => Write.br k t.br[k]).foldl State.perform s).brWritten[k] =
        (if k ∈ ks then true else s.brWritten[k]) ∧
    ((ks.map fun k => Write.br k t.br[k]).foldl State.perform s).gr = s.gr ∧
    ((ks.map fun k => Write.br k t.br[k]).foldl State.perform s).grWritten = s.grWritten ∧
    ((ks.map fun k => Write.br k t.br[k]).foldl State.perform s).dmem = s.dmem := by
  induction ks generalizing s with
  | nil => simp
  | cons j ks ih =>
    obtain ⟨h1, h2, h3, h4, h5⟩ := ih (s.writeBr j t.br[j])
    simp only [List.map_cons, List.foldl_cons, State.perform_br, h1, h2, h3, h4, h5, State.writeBr_gr,
      State.writeBr_grWritten, State.writeBr_dmem, writeBr_getElem, writeBr_written_getElem, List.mem_cons, and_self,
      and_true]
    by_cases hk : k = j
    · subst hk; simp
    · simp [hk]

/-- The bytes of data memory among the results: none, or one stretch. -/
theorem results_dmem (i : Instr) (s t acc : State) :
    ((results i s t).foldl State.perform acc).dmem =
      match (access i).store with
      | none => acc.dmem
      | some w => acc.dmem.writeBytes (s.ea w.base w.offset).toNat
          ((t.dmem.readBytes (s.ea w.base w.offset).toNat w.width.bytes).getD []) := by
  have hg := (performGrs (access i).grWrites t acc 0).2.2.2.2
  have hb := fun a : State => (performBrs (access i).brWrites t a 0).2.2.2.2
  unfold results
  cases (access i).store <;>
    simp only [List.foldl_append, List.foldl_cons, List.foldl_nil, State.perform_dmem, hb, hg, accessAddr_eq]

/-- A GR after an operation's results: that of the outcome where the row of Table 30-C lists it. -/
theorem commit_gr (i : Instr) (s t acc : State) (k : GR) :
    (commit i s t acc).gr[k] = if k ∈ (access i).grWrites ∧ k ≠ 0 then t.gr[k] else acc.gr[k] := by
  have h : (commit i s t acc).gr = ((results i s t).foldl State.perform acc).gr := rfl
  have hb := fun a : State => (performBrs (access i).brWrites t a 0).2.2.1
  have hg := (performGrs (access i).grWrites t acc k).1
  rw [h]; unfold results
  cases (access i).store <;> simp only [List.foldl_append, List.foldl_cons, List.foldl_nil, State.perform_dmem, hb, hg]

theorem commit_grWritten (i : Instr) (s t acc : State) (k : GR) :
    (commit i s t acc).grWritten[k] = if k ∈ (access i).grWrites ∧ k ≠ 0 then true else acc.grWritten[k] := by
  have h : (commit i s t acc).grWritten = ((results i s t).foldl State.perform acc).grWritten := rfl
  have hb := fun a : State => (performBrs (access i).brWrites t a 0).2.2.2.1
  have hg := (performGrs (access i).grWrites t acc k).2.1
  rw [h]; unfold results
  cases (access i).store <;> simp only [List.foldl_append, List.foldl_cons, List.foldl_nil, State.perform_dmem, hb, hg]

/-- A BR after an operation's results. -/
theorem commit_br (i : Instr) (s t acc : State) (k : BR) :
    (commit i s t acc).br[k] = if k ∈ (access i).brWrites then t.br[k] else acc.br[k] := by
  have h : (commit i s t acc).br = ((results i s t).foldl State.perform acc).br := rfl
  have hg := (performGrs (access i).grWrites t acc 0).2.2.1
  have hb := fun a : State => (performBrs (access i).brWrites t a k).1
  rw [h]; unfold results
  cases (access i).store <;> simp only [List.foldl_append, List.foldl_cons, List.foldl_nil, State.perform_dmem, hb, hg]

theorem commit_brWritten (i : Instr) (s t acc : State) (k : BR) :
    (commit i s t acc).brWritten[k] = if k ∈ (access i).brWrites then true else acc.brWritten[k] := by
  have h : (commit i s t acc).brWritten = ((results i s t).foldl State.perform acc).brWritten := rfl
  have hg := (performGrs (access i).grWrites t acc 0).2.2.2.1
  have hb := fun a : State => (performBrs (access i).brWrites t a k).2.1
  rw [h]; unfold results
  cases (access i).store <;> simp only [List.foldl_append, List.foldl_cons, List.foldl_nil, State.perform_dmem, hb, hg]

/-- An operation that is no store leaves data memory to the others. -/
theorem commit_dmem_of_none {i : Instr} (s t acc : State) (h : (access i).store = none) :
    (commit i s t acc).dmem = acc.dmem := by
  have e := results_dmem i s t acc
  rw [h] at e
  exact e

/-- A store that raises nothing stores exactly what its outcome holds. -/
theorem commit_dmem_of_storeOp {i : Instr} {w : Width} {off : Word} {s1 s2 : GR} {s t acc : State}
    (hi : (access i).store = some ⟨s1, off, w⟩) (h : storeOp w off s1 s2 s = .next t)
    (ht : t.fault = none) (hm : acc.dmem = s.dmem) : (commit i s t acc).dmem = t.dmem := by
  rcases storeOp_next h with ⟨c, rfl⟩ | ⟨m, hw, rfl⟩
  · simp at ht
  · have e := results_dmem i s m.advance acc
    rw [hi] at e
    refine e.trans ?_
    obtain ⟨-, rfl⟩ := memWrite_eq_ok hw
    simp only [State.advance_dmem]
    have hl := splitBytes_length Params.endian (s.readGr s2) w.bytes
    have hr : (s.dmem.writeBytes (s.ea s1 off).toNat (splitBytes Params.endian (s.readGr s2) w.bytes)).readBytes
        (s.ea s1 off).toNat w.bytes = some (splitBytes Params.endian (s.readGr s2) w.bytes) :=
      Memory.readBytes_eq_some.2 ⟨hl, fun k hk => by
        rw [Memory.read_writeBytes, if_pos (by omega), Nat.add_sub_cancel_left]⟩
    rw [hr, hm]; rfl

/-! ### Evaluation -/

/-- Evaluation ends in a fault raised on the state before the bundle, or goes on to the next slot with the
operation's results performed. -/
theorem runSlots_cons (s : State) (i : Instr) (rest : List Instr) (acc : State) :
    runSlots s (i :: rest) acc =
      match exec i s with
      | .next t =>
        match t.fault with
        | some c => .next (s.raise c)
        | none => runSlots s rest (commit i s t acc)
      | .fault r => .fault r
      | .refused r => .refused r := rfl

/-- A bundle that fails the check raises its reason and runs nothing. -/
theorem runBundle_of_reason {is : List Instr} {s : State} {r : BundleReason} (h : bundleReason is = some r) :
    runBundle is s = .next (s.raise (.badBundle r)) := by
  unfold runBundle; rw [h]

/-- A bundle that passes the check is evaluated on the way to the next pc. -/
theorem runBundle_of_none {is : List Instr} {s : State} (h : bundleReason is = none) :
    runBundle is s = runSlots s is s.advance := by
  unfold runBundle; rw [h]; simp

end Sys2Proof.Machine
end

