-- ==== Sys2Proof/Laws/PerInstr.lean ====
section
/-! SUPPORT. Statements about every operation as syntax, one lemma per constructor. -/

namespace Sys2Proof.Laws

/-- The first syllable of a list carries the opcode. -/
def FirstOpcode (op : BitVec 7) (ws : List Syllable) : Prop := ∀ w ∈ ws.head?, w.opcode = op

theorem opcode_single {op : BitVec 7} {w : Syllable} (h : w.opcode = op) : FirstOpcode op [w] := by
  intro x hx
  cases hx
  exact h

theorem opcode_immWords (op : BitVec 7) (d a : GR) (v : Word) : FirstOpcode op (immWords op d a v) := by
  unfold immWords
  intro w hw
  split at hw <;> cases hw <;> exact immWord_opcode _ _ _ _ _

theorem opcode_src2Words (op : BitVec 7) (d a : GR) (x : Src2) : FirstOpcode op (src2Words op d a x) := by
  cases x with
  | reg s2 => exact opcode_single (registerWord_opcode _ _ _ _ _)
  | imm v => exact opcode_immWords _ _ _ _

theorem opcode_truthWords (op : BitVec 7) (d : Target) (a : GR) (x : Src2) :
    FirstOpcode op (truthWords op d a x) := by
  cases d <;> cases x
  · exact opcode_single (registerWord_opcode _ _ _ _ _)
  · exact opcode_immWords _ _ _ _
  · exact opcode_single (registerWord_opcode _ _ _ _ _)
  · exact opcode_immWords _ _ _ _

theorem opcode_cyclesWords (op : BitVec 7) (n : Option Nat) : FirstOpcode op (cyclesWords op n) := by
  cases n
  · exact opcode_single (registerWord_opcode _ _ _ _ _)
  · exact opcode_single (branchWord_opcode _ _ _ _)

end Sys2Proof.Laws

namespace Sys2Proof.Laws.OpcodeField

/-- The encoder's first syllable of an operation carries its opcode of Table 30-D in bits 31 to 25 (30_encoding.md
R60, R66). -/
def Statement (i : Instr) : Prop := FirstOpcode i.opcode i.words

theorem nop : Statement .nop := opcode_single (registerWord_opcode _ _ _ _ _)
theorem mpyll (t s1 : GR) (src2 : Src2) : Statement (.mpyll t s1 src2) := opcode_src2Words _ _ _ _
theorem mpyllu (t s1 : GR) (src2 : Src2) : Statement (.mpyllu t s1 src2) := opcode_src2Words _ _ _ _
theorem mpylh (t s1 : GR) (src2 : Src2) : Statement (.mpylh t s1 src2) := opcode_src2Words _ _ _ _
theorem mpylhu (t s1 : GR) (src2 : Src2) : Statement (.mpylhu t s1 src2) := opcode_src2Words _ _ _ _
theorem mpyhh (t s1 : GR) (src2 : Src2) : Statement (.mpyhh t s1 src2) := opcode_src2Words _ _ _ _
theorem mpyhhu (t s1 : GR) (src2 : Src2) : Statement (.mpyhhu t s1 src2) := opcode_src2Words _ _ _ _
theorem mpyl (t s1 : GR) (src2 : Src2) : Statement (.mpyl t s1 src2) := opcode_src2Words _ _ _ _
theorem mpylu (t s1 : GR) (src2 : Src2) : Statement (.mpylu t s1 src2) := opcode_src2Words _ _ _ _
theorem mpyh (t s1 : GR) (src2 : Src2) : Statement (.mpyh t s1 src2) := opcode_src2Words _ _ _ _
theorem mpyhu (t s1 : GR) (src2 : Src2) : Statement (.mpyhu t s1 src2) := opcode_src2Words _ _ _ _
theorem mpyhs (t s1 : GR) (src2 : Src2) : Statement (.mpyhs t s1 src2) := opcode_src2Words _ _ _ _
theorem reserved0001100 : Statement .reserved0001100 := opcode_single (registerWord_opcode _ _ _ _ _)
theorem reserved0001101 : Statement .reserved0001101 := opcode_single (registerWord_opcode _ _ _ _ _)
theorem reserved0001110 : Statement .reserved0001110 := opcode_single (registerWord_opcode _ _ _ _ _)
theorem reserved0001111 : Statement .reserved0001111 := opcode_single (registerWord_opcode _ _ _ _ _)
theorem reserved0010000 : Statement .reserved0010000 := opcode_single (registerWord_opcode _ _ _ _ _)
theorem ldw (t : GR) (off : Word) (s1 : GR) : Statement (.ldw t off s1) := opcode_immWords _ _ _ _
theorem ldh (t : GR) (off : Word) (s1 : GR) : Statement (.ldh t off s1) := opcode_immWords _ _ _ _
theorem ldhu (t : GR) (off : Word) (s1 : GR) : Statement (.ldhu t off s1) := opcode_immWords _ _ _ _
theorem ldb (t : GR) (off : Word) (s1 : GR) : Statement (.ldb t off s1) := opcode_immWords _ _ _ _
theorem ldbu (t : GR) (off : Word) (s1 : GR) : Statement (.ldbu t off s1) := opcode_immWords _ _ _ _
theorem stw (off : Word) (s1 s2 : GR) : Statement (.stw off s1 s2) := opcode_immWords _ _ _ _
theorem sth (off : Word) (s1 s2 : GR) : Statement (.sth off s1 s2) := opcode_immWords _ _ _ _
theorem stb (off : Word) (s1 s2 : GR) : Statement (.stb off s1 s2) := opcode_immWords _ _ _ _
theorem pft (off : Word) (s1 : GR) : Statement (.pft off s1) := opcode_immWords _ _ _ _
theorem reserved0011010 : Statement .reserved0011010 := opcode_single (registerWord_opcode _ _ _ _ _)
theorem reserved0011011 : Statement .reserved0011011 := opcode_single (registerWord_opcode _ _ _ _ _)
theorem sylFollow (payload : BitVec 23) : Statement (.sylFollow payload) := opcode_single (followWord_opcode _)
theorem reserved0011101 : Statement .reserved0011101 := opcode_single (registerWord_opcode _ _ _ _ _)
theorem reserved0011110 : Statement .reserved0011110 := opcode_single (registerWord_opcode _ _ _ _ _)
theorem stop : Statement .stop := opcode_single (registerWord_opcode _ _ _ _ _)
theorem reserved0100000 : Statement .reserved0100000 := opcode_single (registerWord_opcode _ _ _ _ _)
theorem goto (off : Int) : Statement (.goto off) := opcode_single (branchWord_opcode _ _ _ _)
theorem igoto : Statement .igoto := opcode_single (registerWord_opcode _ _ _ _ _)
theorem call (off : Int) : Statement (.call off) := opcode_single (branchWord_opcode _ _ _ _)
theorem icall : Statement .icall := opcode_single (registerWord_opcode _ _ _ _ _)
theorem br (b : BR) (off : Int) : Statement (.br b off) := opcode_single (branchWord_opcode _ _ _ _)
theorem brf (b : BR) (off : Int) : Statement (.brf b off) := opcode_single (branchWord_opcode _ _ _ _)
theorem ret (t : GR) (frame : Int) : Statement (.ret t frame) := opcode_single (branchWord_opcode _ _ _ _)
theorem rfi : Statement .rfi := opcode_single (registerWord_opcode _ _ _ _ _)
theorem xnop (n : Option Nat) : Statement (.xnop n) := opcode_cyclesWords _ _
theorem send (operands : Option (GR × Path)) : Statement (.send operands) := opcode_single (registerWord_opcode _ _ _ _ _)
theorem recv (operands : Option (GR × Path)) : Statement (.recv operands) := opcode_single (registerWord_opcode _ _ _ _ _)
theorem reserved0101100 : Statement .reserved0101100 := opcode_single (registerWord_opcode _ _ _ _ _)
theorem reserved0101101 : Statement .reserved0101101 := opcode_single (registerWord_opcode _ _ _ _ _)
theorem reserved0101110 : Statement .reserved0101110 := opcode_single (registerWord_opcode _ _ _ _ _)
theorem reserved0101111 : Statement .reserved0101111 := opcode_single (registerWord_opcode _ _ _ _ _)
theorem slctf (t : GR) (b1 : BR) (s1 : GR) (src2 : Src2) : Statement (.slctf t b1 s1 src2) := opcode_src2Words _ _ _ _
theorem slct (t : GR) (b1 : BR) (s1 : GR) (src2 : Src2) : Statement (.slct t b1 s1 src2) := opcode_src2Words _ _ _ _
theorem reserved1000000 : Statement .reserved1000000 := opcode_single (registerWord_opcode _ _ _ _ _)
theorem add (t s1 : GR) (src2 : Src2) : Statement (.add t s1 src2) := opcode_src2Words _ _ _ _
theorem reserved1000010 : Statement .reserved1000010 := opcode_single (registerWord_opcode _ _ _ _ _)
theorem and (t s1 : GR) (src2 : Src2) : Statement (.and t s1 src2) := opcode_src2Words _ _ _ _
theorem andc (t s1 : GR) (src2 : Src2) : Statement (.andc t s1 src2) := opcode_src2Words _ _ _ _
theorem max (t s1 : GR) (src2 : Src2) : Statement (.max t s1 src2) := opcode_src2Words _ _ _ _
theorem maxu (t s1 : GR) (src2 : Src2) : Statement (.maxu t s1 src2) := opcode_src2Words _ _ _ _
theorem min (t s1 : GR) (src2 : Src2) : Statement (.min t s1 src2) := opcode_src2Words _ _ _ _
theorem minu (t s1 : GR) (src2 : Src2) : Statement (.minu t s1 src2) := opcode_src2Words _ _ _ _
theorem or (t s1 : GR) (src2 : Src2) : Statement (.or t s1 src2) := opcode_src2Words _ _ _ _
theorem orc (t s1 : GR) (src2 : Src2) : Statement (.orc t s1 src2) := opcode_src2Words _ _ _ _
theorem sh1add (t s1 : GR) (src2 : Src2) : Statement (.sh1add t s1 src2) := opcode_src2Words _ _ _ _
theorem sh2add (t s1 : GR) (src2 : Src2) : Statement (.sh2add t s1 src2) := opcode_src2Words _ _ _ _
theorem sh3add (t s1 : GR) (src2 : Src2) : Statement (.sh3add t s1 src2) := opcode_src2Words _ _ _ _
theorem sh4add (t s1 : GR) (src2 : Src2) : Statement (.sh4add t s1 src2) := opcode_src2Words _ _ _ _
theorem shl (t s1 : GR) (src2 : Src2) : Statement (.shl t s1 src2) := opcode_src2Words _ _ _ _
theorem shr (t s1 : GR) (src2 : Src2) : Statement (.shr t s1 src2) := opcode_src2Words _ _ _ _
theorem shru (t s1 : GR) (src2 : Src2) : Statement (.shru t s1 src2) := opcode_src2Words _ _ _ _
theorem sub (t : GR) (src2 : Src2) (s1 : GR) : Statement (.sub t src2 s1) := opcode_src2Words _ _ _ _
theorem sxtb (t s1 : GR) : Statement (.sxtb t s1) := opcode_single (registerWord_opcode _ _ _ _ _)
theorem sxth (t s1 : GR) : Statement (.sxth t s1) := opcode_single (registerWord_opcode _ _ _ _ _)
theorem zxtb (t s1 : GR) : Statement (.zxtb t s1) := opcode_single (registerWord_opcode _ _ _ _ _)
theorem zxth (t s1 : GR) : Statement (.zxth t s1) := opcode_single (registerWord_opcode _ _ _ _ _)
theorem xor (t s1 : GR) (src2 : Src2) : Statement (.xor t s1 src2) := opcode_src2Words _ _ _ _
theorem mov (t s1 : GR) : Statement (.mov t s1) := opcode_single (registerWord_opcode _ _ _ _ _)
theorem cmpeq (d : Target) (s1 : GR) (src2 : Src2) : Statement (.cmpeq d s1 src2) := opcode_truthWords _ _ _ _
theorem cmpge (d : Target) (s1 : GR) (src2 : Src2) : Statement (.cmpge d s1 src2) := opcode_truthWords _ _ _ _
theorem cmpgeu (d : Target) (s1 : GR) (src2 : Src2) : Statement (.cmpgeu d s1 src2) := opcode_truthWords _ _ _ _
theorem cmpgt (d : Target) (s1 : GR) (src2 : Src2) : Statement (.cmpgt d s1 src2) := opcode_truthWords _ _ _ _
theorem cmpgtu (d : Target) (s1 : GR) (src2 : Src2) : Statement (.cmpgtu d s1 src2) := opcode_truthWords _ _ _ _
theorem cmple (d : Target) (s1 : GR) (src2 : Src2) : Statement (.cmple d s1 src2) := opcode_truthWords _ _ _ _
theorem cmpleu (d : Target) (s1 : GR) (src2 : Src2) : Statement (.cmpleu d s1 src2) := opcode_truthWords _ _ _ _
theorem cmplt (d : Target) (s1 : GR) (src2 : Src2) : Statement (.cmplt d s1 src2) := opcode_truthWords _ _ _ _
theorem cmpltu (d : Target) (s1 : GR) (src2 : Src2) : Statement (.cmpltu d s1 src2) := opcode_truthWords _ _ _ _
theorem cmpne (d : Target) (s1 : GR) (src2 : Src2) : Statement (.cmpne d s1 src2) := opcode_truthWords _ _ _ _
theorem nandl (d : Target) (s1 : GR) (src2 : Src2) : Statement (.nandl d s1 src2) := opcode_truthWords _ _ _ _
theorem norl (d : Target) (s1 : GR) (src2 : Src2) : Statement (.norl d s1 src2) := opcode_truthWords _ _ _ _
theorem reserved1100101 : Statement .reserved1100101 := opcode_single (registerWord_opcode _ _ _ _ _)
theorem orl (d : Target) (s1 : GR) (src2 : Src2) : Statement (.orl d s1 src2) := opcode_truthWords _ _ _ _
theorem mtb (b : BR) (s1 : GR) : Statement (.mtb b s1) := opcode_single (registerWord_opcode _ _ _ _ _)
theorem andl (d : Target) (s1 : GR) (src2 : Src2) : Statement (.andl d s1 src2) := opcode_truthWords _ _ _ _
theorem reserved1101001 : Statement .reserved1101001 := opcode_single (registerWord_opcode _ _ _ _ _)
theorem reserved1101010 : Statement .reserved1101010 := opcode_single (registerWord_opcode _ _ _ _ _)
theorem reserved1101011 : Statement .reserved1101011 := opcode_single (registerWord_opcode _ _ _ _ _)
theorem reserved1101100 : Statement .reserved1101100 := opcode_single (registerWord_opcode _ _ _ _ _)
theorem reserved1101101 : Statement .reserved1101101 := opcode_single (registerWord_opcode _ _ _ _ _)
theorem reserved1101110 : Statement .reserved1101110 := opcode_single (registerWord_opcode _ _ _ _ _)
theorem reserved1101111 : Statement .reserved1101111 := opcode_single (registerWord_opcode _ _ _ _ _)
theorem divs (t : GR) (b b1 : BR) (s1 s2 : GR) : Statement (.divs t b b1 s1 s2) := opcode_single (registerWord_opcode _ _ _ _ _)
theorem addcg (t : GR) (b b1 : BR) (s1 s2 : GR) : Statement (.addcg t b b1 s1 s2) := opcode_single (registerWord_opcode _ _ _ _ _)

end Sys2Proof.Laws.OpcodeField
end

