-- ==== Sys2Proof/Tests/Slice0.lean ====
section
/-! SUPPORT. Tests: each a named theorem on fixed values. Words and expected values come from spec/95_test_vectors.md
(the vector's number is in the comment) or are written out here from Table 30-B and Table 30-D of spec/30_encoding.md.
The last section holds a witness for the hypotheses of each statement. -/

namespace Sys2Proof.Tests

open Sys2Proof.Machine Sys2Proof.Rules

/-! ### Helpers -/

/-- The outcome is a next state with the property. -/
def nextThat (r : Result) (p : State → Bool) : Bool :=
  match r with
  | .next t => p t
  | .fault _ => false
  | .refused _ => false

theorem of_nextThat {r : Result} {p : State → Bool} (h : nextThat r p = true) : ∃ t, r = .next t ∧ p t = true := by
  unfold nextThat at h
  split at h
  · exact ⟨_, rfl, h⟩
  · cases h
  · cases h

/-- A next state without a fault, with the property. -/
def runsTo (r : Result) (p : State → Bool) : Bool := nextThat r (fun t => t.fault == none && p t)

/-- The outcome raises this fault. -/
def raises (r : Result) (c : Cause) : Bool := nextThat r (fun t => t.fault == some c)

/-- The syllables decode to this operation, whose form takes all of them. -/
def decodes (ws : List Syllable) (i : Instr) : Bool :=
  match ws with
  | [] => false
  | w :: rest =>
    match decodeSyllable w rest with
    | .ok (j, next) => j == i && next == !rest.isEmpty
    | .error _ => false

/-- The words an encoder gives, none when it refuses. -/
def encodes (i : Instr) (ws : List Syllable) : Bool := encode i == some ws

/-- A launch that names GR 1 and GR 2. -/
def two (a b : Word) : State := State.launch { gr := [(1, a), (2, b)], dmemBytes := 256 }

/-- A launch that names GR 1, GR 2 and BR 4. -/
def twoAnd (a b : Word) (c : Bool) : State := State.launch { gr := [(1, a), (2, b)], br := [(4, c)], dmemBytes := 256 }

/-- The start of the vectors of section 2.6 and 2.7, at pc 10. -/
def start : State :=
  { State.launch
      { gr := [(1, 0x10), (9, 0xA1B2C3D4), (63, 40)]
        br := [(3, true), (4, false)]
        dmem := [(0x10, 0x80), (0x11, 0x01), (0x12, 0x7F), (0x13, 0xFE), (0x14, 0xFF), (0x15, 0x00), (0x16, 0x12),
          (0x17, 0x34)]
        dmemBytes := 256 } with pc := 10 }

/-- A bundle of one syllable and NOPs, with the marks of R72. -/
def alone (w : Syllable) : Bundle := #v[w, 0, 0, 2]

/-- The launch of a program of one bundle. -/
def program (b : Bundle) (gr : List (GR × Word)) (br : List (BR × Bool)) : State :=
  State.launch { program := [b], gr := gr, br := br, dmemBytes := 256 }

/-! ### WellFormed refuses what Level B cannot carry (U21, U24) -/

/-- Form d, a BR target with an immediate, for every operation of type II. -/
theorem test_wf_form_d : ([
    .cmpeq (.br 5) 1 (.imm 3), .cmpge (.br 5) 1 (.imm 3), .cmpgeu (.br 5) 1 (.imm 3),
    .cmpgt (.br 5) 1 (.imm 3), .cmpgtu (.br 5) 1 (.imm 3), .cmple (.br 5) 1 (.imm 3),
    .cmpleu (.br 5) 1 (.imm 3), .cmplt (.br 5) 1 (.imm 3), .cmpltu (.br 5) 1 (.imm 3),
    .cmpne (.br 5) 1 (.imm 3), .nandl (.br 5) 1 (.imm 3), .norl (.br 5) 1 (.imm 3),
    .orl (.br 5) 1 (.imm 3), .andl (.br 5) 1 (.imm 3)] : List Instr).all (fun i => !i.wellFormed) = true := by decide

/-- A register form of type II cannot name `$r0.0` as its GR target. -/
theorem test_wf_zero_target : ([
    .cmpeq (.gr 0) 1 (.reg 2), .cmpge (.gr 0) 1 (.reg 2), .cmpgeu (.gr 0) 1 (.reg 2),
    .cmpgt (.gr 0) 1 (.reg 2), .cmpgtu (.gr 0) 1 (.reg 2), .cmple (.gr 0) 1 (.reg 2),
    .cmpleu (.gr 0) 1 (.reg 2), .cmplt (.gr 0) 1 (.reg 2), .cmpltu (.gr 0) 1 (.reg 2),
    .cmpne (.gr 0) 1 (.reg 2), .nandl (.gr 0) 1 (.reg 2), .norl (.gr 0) 1 (.reg 2),
    .orl (.gr 0) 1 (.reg 2), .andl (.gr 0) 1 (.reg 2)] : List Instr).all (fun i => !i.wellFormed) = true := by decide

/-- Displacements, frame sizes and cycle counts beyond 12 bits. -/
theorem test_wf_range : ([
    .goto 2048, .goto (-2049), .call 2048, .call (-2049), .br 0 2048, .br 0 (-2049), .brf 0 2048,
    .brf 0 (-2049), .ret 1 2048, .ret 1 (-2049), .xnop (some 4096)] :
    List Instr).all (fun i => !i.wellFormed && encode i == none) = true := by decide

/-- The last values that fit. -/
theorem test_wf_edges : ([
    .goto 2047, .goto (-2048), .call 2047, .call (-2048), .br 0 2047, .br 0 (-2048), .brf 0 2047,
    .brf 0 (-2048), .ret 1 2047, .ret 1 (-2048), .xnop (some 4095), .xnop none, .cmpeq (.gr 0) 1 (.imm 3),
    .cmpeq (.br 0) 1 (.reg 2)] :
    List Instr).all Instr.wellFormed = true := by decide

/-! ### Decoding, a word for every constructor -/

/-- Each list of syllables decodes to the operation beside it. -/
def allDecode (ps : List (List Syllable × Instr)) : Bool := ps.all (fun p => decodes p.1 p.2)

/-- Type I of the ALU table, register form (Table 30-C row I a). -/
theorem test_decode_alu_type_I : allDecode [
    ([0b1000001_00_001000_001000_001101_000_00#32], .add 8 8 (.reg 13)),
    ([0b1000011_00_001101_001111_011000_000_00#32], .and 13 15 (.reg 24)),
    ([0b1000100_00_010010_010110_100011_000_00#32], .andc 18 22 (.reg 35)),
    ([0b1000101_00_010111_011101_101110_000_00#32], .max 23 29 (.reg 46)),
    ([0b1000110_00_011100_100100_111001_000_00#32], .maxu 28 36 (.reg 57)),
    ([0b1000111_00_100001_101011_000100_000_00#32], .min 33 43 (.reg 4)),
    ([0b1001000_00_100110_110010_001111_000_00#32], .minu 38 50 (.reg 15)),
    ([0b1001001_00_101011_111001_011010_000_00#32], .or 43 57 (.reg 26)),
    ([0b1001010_00_110000_000000_100101_000_00#32], .orc 48 0 (.reg 37))] = true := by decide

/-- Type I of the ALU table, register form, continued. -/
theorem test_decode_alu_type_I_more : allDecode [
    ([0b1001011_00_110101_000111_110000_000_00#32], .sh1add 53 7 (.reg 48)),
    ([0b1001100_00_111010_001110_111011_000_00#32], .sh2add 58 14 (.reg 59)),
    ([0b1001101_00_111111_010101_000110_000_00#32], .sh3add 63 21 (.reg 6)),
    ([0b1001110_00_000100_011100_010001_000_00#32], .sh4add 4 28 (.reg 17)),
    ([0b1001111_00_001001_100011_011100_000_00#32], .shl 9 35 (.reg 28)),
    ([0b1010000_00_001110_101010_100111_000_00#32], .shr 14 42 (.reg 39)),
    ([0b1010001_00_010011_110001_110010_000_00#32], .shru 19 49 (.reg 50)),
    ([0b1010111_00_011000_111000_111101_000_00#32], .xor 24 56 (.reg 61))] = true := by decide

/-- The MUL table, register form. -/
theorem test_decode_mul_type_I : allDecode [
    ([0b0000001_00_011101_111111_001000_000_00#32], .mpyll 29 63 (.reg 8)),
    ([0b0000010_00_100010_000110_010011_000_00#32], .mpyllu 34 6 (.reg 19)),
    ([0b0000011_00_100111_001101_011110_000_00#32], .mpylh 39 13 (.reg 30)),
    ([0b0000100_00_101100_010100_101001_000_00#32], .mpylhu 44 20 (.reg 41)),
    ([0b0000101_00_110001_011011_110100_000_00#32], .mpyhh 49 27 (.reg 52)),
    ([0b0000110_00_110110_100010_111111_000_00#32], .mpyhhu 54 34 (.reg 63)),
    ([0b0000111_00_111011_101001_001010_000_00#32], .mpyl 59 41 (.reg 10)),
    ([0b0001000_00_000000_110000_010101_000_00#32], .mpylu 0 48 (.reg 21)),
    ([0b0001001_00_000101_110111_100000_000_00#32], .mpyh 5 55 (.reg 32)),
    ([0b0001010_00_001010_111110_101011_000_00#32], .mpyhu 10 62 (.reg 43)),
    ([0b0001011_00_001111_000101_110110_000_00#32], .mpyhs 15 5 (.reg 54))] = true := by decide

/-- Type II with `dst` = 0: the target is the BR in w[4:2] (row II c). -/
theorem test_decode_type_II_branch_target : allDecode [
    ([0b1011001_00_000000_001100_000001_000_00#32], .cmpeq (.br 0) 12 (.reg 1)),
    ([0b1011010_00_000000_010011_001100_001_00#32], .cmpge (.br 1) 19 (.reg 12)),
    ([0b1011011_00_000000_011010_010111_010_00#32], .cmpgeu (.br 2) 26 (.reg 23)),
    ([0b1011100_00_000000_100001_100010_011_00#32], .cmpgt (.br 3) 33 (.reg 34)),
    ([0b1011101_00_000000_101000_101101_100_00#32], .cmpgtu (.br 4) 40 (.reg 45)),
    ([0b1011110_00_000000_101111_111000_101_00#32], .cmple (.br 5) 47 (.reg 56)),
    ([0b1011111_00_000000_110110_000011_110_00#32], .cmpleu (.br 6) 54 (.reg 3)),
    ([0b1100000_00_000000_111101_001110_111_00#32], .cmplt (.br 7) 61 (.reg 14)),
    ([0b1100001_00_000000_000100_011001_000_00#32], .cmpltu (.br 0) 4 (.reg 25)),
    ([0b1100010_00_000000_001011_100100_001_00#32], .cmpne (.br 1) 11 (.reg 36)),
    ([0b1100011_00_000000_010010_101111_010_00#32], .nandl (.br 2) 18 (.reg 47)),
    ([0b1100100_00_000000_011001_111010_011_00#32], .norl (.br 3) 25 (.reg 58)),
    ([0b1100110_00_000000_100000_000101_100_00#32], .orl (.br 4) 32 (.reg 5)),
    ([0b1101000_00_000000_100111_010000_101_00#32], .andl (.br 5) 39 (.reg 16))] = true := by decide

/-- Type II with a GR target: register form, then short immediate form (rows II a, II b). -/
theorem test_decode_type_II_general_target : allDecode [
    ([0b1011001_00_011010_101110_011011_000_00#32], .cmpeq (.gr 26) 46 (.reg 27)),
    ([0b1011010_00_011111_110101_100110_000_00#32], .cmpge (.gr 31) 53 (.reg 38)),
    ([0b1011011_00_100100_111100_110001_000_00#32], .cmpgeu (.gr 36) 60 (.reg 49)),
    ([0b1011100_00_101001_000011_111100_000_00#32], .cmpgt (.gr 41) 3 (.reg 60)),
    ([0b1011101_00_101110_001010_000111_000_00#32], .cmpgtu (.gr 46) 10 (.reg 7)),
    ([0b1011110_00_110011_010001_010010_000_00#32], .cmple (.gr 51) 17 (.reg 18)),
    ([0b1011111_00_111000_011000_011101_000_00#32], .cmpleu (.gr 56) 24 (.reg 29)),
    ([0b1100000_01_111101_011111_111110111_00#32], .cmplt (.gr 61) 31 (.imm (-9))),
    ([0b1100001_01_000010_100110_111110110_00#32], .cmpltu (.gr 2) 38 (.imm (-10))),
    ([0b1100010_01_000111_101101_111110101_00#32], .cmpne (.gr 7) 45 (.imm (-11))),
    ([0b1100011_01_001100_110100_111110100_00#32], .nandl (.gr 12) 52 (.imm (-12))),
    ([0b1100100_01_010001_111011_111110011_00#32], .norl (.gr 17) 59 (.imm (-13))),
    ([0b1100110_01_010110_000010_111110010_00#32], .orl (.gr 22) 2 (.imm (-14))),
    ([0b1101000_01_011011_001001_111110001_00#32], .andl (.gr 27) 9 (.imm (-15)))] = true := by decide

/-- Types III to VII. -/
theorem test_decode_select_carry_unary : allDecode [
    ([0b0110101_00_100000_010000_110101_000_00#32], .slctf 32 5 16 (.reg 53)),
    ([0b0111110_00_100101_010111_000000_000_00#32], .slct 37 6 23 (.reg 0)),
    ([0b0111010_01_101010_011110_111111111_00#32], .slct 42 2 30 (.imm (-1))),
    ([0b1110011_00_101111_100101_010110_100_00#32], .divs 47 4 3 37 22),
    ([0b1111100_00_110100_101100_100001_111_00#32], .addcg 52 7 4 44 33),
    ([0b1100111_00_000000_110011_000000_011_00#32], .mtb 3 51),
    ([0b1010010_00_111110_111010_110111_000_00#32], .sub 62 (.reg 55) 58),
    ([0b1010010_01_000011_000001_001100100_00#32], .sub 3 (.imm 100) 1),
    ([0b1010011_00_001000_001000_000000_000_00#32], .sxtb 8 8),
    ([0b1010100_00_001101_001111_000000_000_00#32], .sxth 13 15),
    ([0b1010101_00_010010_010110_000000_000_00#32], .zxtb 18 22),
    ([0b1010110_00_010111_011101_000000_000_00#32], .zxth 23 29),
    ([0b1011000_00_011100_100100_000000_000_00#32], .mov 28 36)] = true := by decide

/-- The MEM table, short and long offsets; a store carries its data register in `dst` (R83). -/
theorem test_decode_mem : allDecode [
    ([0b0010001_01_100001_101011_111111100_00#32], .ldw 33 (-4) 43),
    ([0b0010010_01_100110_110010_000000010_00#32], .ldh 38 (2) 50),
    ([0b0010011_01_101011_111001_100000000_00#32], .ldhu 43 (-256) 57),
    ([0b0010100_01_110000_000000_011111111_00#32], .ldb 48 (255) 0),
    ([0b0010101_01_110101_000111_000000001_00#32], .ldbu 53 (1) 7),
    ([0b0010110_01_111010_001110_000001000_00#32], .stw (8) 14 58),
    ([0b0010111_01_111111_010101_111111110_00#32], .sth (-2) 21 63),
    ([0b0011000_01_000100_011100_000000111_00#32], .stb (7) 28 4),
    ([0b0011001_01_000000_100011_000010000_00#32], .pft 16 35),
    ([0b0010001_11_001110_101010_011110000_00#32, 0b0011100_10011010101111001101111_00#32], .ldw 14 0x9ABCDEF0 42)] = true := by decide

/-- The CTRL table and the miscellaneous operations. -/
theorem test_decode_ctrl_and_misc : allDecode [
    ([0b0100001_10_000000_111111111101_000_00#32], .goto (-3)),
    ([0b0100010_00_000000_000000_000000_000_00#32], .igoto),
    ([0b0100011_10_000000_001010111100_000_00#32], .call 700),
    ([0b0100100_00_000000_000000_000000_000_00#32], .icall),
    ([0b0100101_10_000000_100000000000_110_00#32], .br 6 (-2048)),
    ([0b0100110_10_000000_011111111111_001_00#32], .brf 1 2047),
    ([0b0100111_10_011101_111111100000_000_00#32], .ret 29 (-32)),
    ([0b0101000_00_000000_000000_000000_000_00#32], .rfi),
    ([0b0101001_10_000000_111111111111_000_00#32], .xnop (some 4095)),
    ([0b0101001_00_000000_000000_000000_000_00#32], .xnop none),
    ([0b0101010_00_000000_000000_000000_000_00#32], .send none),
    ([0b0101011_00_000000_000000_000000_000_00#32], .recv none),
    ([0b0011111_00_000000_000000_000000_000_00#32], .stop),
    ([0b0000000_00_000000_000000_000000_000_00#32], .nop)] = true := by decide

/-- The 24 reserved codes, with some bits below the opcode (R75). -/
theorem test_decode_reserved : allDecode [
    ([0b0001100_1001000110100010101100111#32], .reserved0001100),
    ([0b0001101_0010001101000101011001110#32], .reserved0001101),
    ([0b0001110_1011010011101000000110101#32], .reserved0001110),
    ([0b0001111_0100011010001010110011100#32], .reserved0001111),
    ([0b0010000_1101100000101101100000011#32], .reserved0010000),
    ([0b0011010_0110100111010000001101010#32], .reserved0011010),
    ([0b0011011_1111101101110010111010001#32], .reserved0011011),
    ([0b0011101_1000110100010101100111000#32], .reserved0011101),
    ([0b0011110_0001111010111000010011111#32], .reserved0011110),
    ([0b0100000_1011000001011011000000110#32], .reserved0100000),
    ([0b0101100_0100000111111101101101101#32], .reserved0101100),
    ([0b0101101_1101001110100000011010100#32], .reserved0101101)] = true := by decide

/-- The 24 reserved codes, continued. -/
theorem test_decode_reserved_more : allDecode [
    ([0b0101110_0110010101000011000111011#32], .reserved0101110),
    ([0b0101111_1111011011100101110100010#32], .reserved0101111),
    ([0b1000000_1000100010001000100001001#32], .reserved1000000),
    ([0b1000010_0001101000101011001110000#32], .reserved1000010),
    ([0b1100101_1010101111001101111010111#32], .reserved1100101),
    ([0b1101001_0011110101110000100111110#32], .reserved1101001),
    ([0b1101010_1100111100010011010100101#32], .reserved1101010),
    ([0b1101011_0110000010110110000001100#32], .reserved1101011),
    ([0b1101100_1111001001011000101110011#32], .reserved1101100),
    ([0b1101101_1000001111111011011011010#32], .reserved1101101),
    ([0b1101110_0001010110011110001000001#32], .reserved1101110),
    ([0b1101111_1010011101000000110101000#32], .reserved1101111),
    ([0b0011100_01010100101101001011010_00#32], .sylFollow 0x2A5A5A)] = true := by decide

/-- E3 to E6, E48 to E50: the edges of the short immediate, and long immediates. -/
theorem test_decode_vectors : allDecode [
    ([0x82860BFC#32], .add 3 1 (.imm 255)),
    ([0x83860C00#32, 0x38000000#32], .add 3 1 (.imm 256)),
    ([0x82860C00#32], .add 3 1 (.imm (-256))),
    ([0x83860BFC#32, 0x39FFFFFC#32], .add 3 1 (.imm (-257))),
    ([0x838609E0#32, 0x382468AC#32], .add 3 1 (.imm 0x12345678)),
    ([0x83860800#32, 0x39FFFFFC#32], .add 3 1 (.imm 0xFFFFFE00)),
    ([0x838A0000#32, 0x39000000#32], .add 5 0 (.imm 0x80000000))] = true := by decide

/-- The second table of section 2.1: bits no field covers do not matter. -/
theorem test_decode_ignored_bits : allDecode [
    ([0x82060843#32], .add 3 1 (.reg 2)),
    ([0x8206085C#32], .add 3 1 (.reg 2)),
    ([0x001FFFFC#32], .nop),
    ([0x3FFFFFFC#32], .stop),
    ([0x7E080840#32], .slct 4 7 1 (.reg 2)),
    ([0x60080840#32], .slctf 4 0 1 (.reg 2)),
    ([0xB2800854#32], .cmpeq (.gr 0) 1 (.imm 21)),
    ([0x4B00004C#32], .br 3 2)] = true := by decide

/-- E1, E6, E8, E11, E18, E30, E34, E39, E42 and E48 from the assembly side. -/
theorem test_encode_vectors :
    encodes (.add 3 1 (.reg 2)) [0x82060840] = true ∧ encodes (.add 3 1 (.imm (-257))) [0x83860BFC, 0x39FFFFFC] = true ∧
    encodes (.sub 3 (.imm 10) 1) [0xA4860828] = true ∧ encodes (.cmpeq (.br 5) 1 (.reg 2)) [0xB2000854] = true ∧
    encodes (.addcg 4 2 1 5 6) [0xF20828C8] = true ∧ encodes (.stw 8 1 9) [0x2C920820] = true ∧
    encodes (.goto (-2048)) [0x43010000] = true ∧ encodes (.ret 1 (-32)) [0x4F03FC00] = true ∧
    encodes (.xnop (some 3)) [0x53000060] = true ∧
    encodes (.add 3 1 (.imm 0x12345678)) [0x838609E0, 0x382468AC] = true := by decide

/-- The first bundle of S1 as an assembler writes it, with its marks (R72). -/
theorem test_assemble :
    assemble [.mov 1 2, .mov 2 1] = some #v[0xB0021001, 0xB0040800, 0x00000000, 0x00000002] := by decide

/-- Five syllables do not fit a bundle. -/
theorem test_assemble_too_long : assemble [.nop, .nop, .nop, .add 3 1 (.imm 256)] = none := by decide

/-- The numbering of spec/opcode_table.json: ADD of GR 2 and GR 1 into GR 3, and a long form whose second syllable is
zero, hence no SYL_FOLLOW. -/
theorem test_table_word :
    decodeTableWord 32 0x82060840 = some (.add 3 1 (.reg 2)) ∧ decodeTableWord 32 0x83860C00 = none ∧
    decodeTableWord 64 0x3824_68AC_8386_09E0 = some (.add 3 1 (.imm 0x12345678)) ∧
    decodeTableWord 32 0x220A0801 = none := by decide

/-- The instruction placed for fetch is the one the next step runs. -/
theorem test_fetch_word :
    runsTo (step (State.reset.withFetchWord 32 0x82860828)) (fun t => t.gr[3] == 10 && t.pc == 1) = true ∧
    runsTo (step ({ start with halted := true }.withFetchWord 32 0x47000040))
      (fun t => t.gr[63] == 11 && t.pc == 12) = true := by decide

/-! ### Values (sections 2.2 to 2.5) -/

theorem test_add :
    runsTo (exec (.add 3 1 (.reg 2)) (two 0x7FFFFFFF 0x00000001)) (fun t => t.gr[3] == 0x80000000) = true ∧
    runsTo (exec (.add 3 1 (.imm 0x00000001)) (two 0xFFFFFFFF 0x00000001)) (fun t => t.gr[3] == 0x00000000) = true ∧
    runsTo (exec (.add 3 1 (.reg 2)) (two 0x12345678 0x0F0F0F0F)) (fun t => t.gr[3] == 0x21436587) = true ∧
    runsTo (exec (.add 3 1 (.reg 2)) (two 0x00000005 0xFFFFFFFD)) (fun t => t.gr[3] == 0x00000002) = true := by decide

theorem test_and :
    runsTo (exec (.and 3 1 (.reg 2)) (two 0x7FFFFFFF 0x00000001)) (fun t => t.gr[3] == 0x00000001) = true ∧
    runsTo (exec (.and 3 1 (.imm 0x0F0F0F0F)) (two 0x12345678 0x0F0F0F0F)) (fun t => t.gr[3] == 0x02040608) = true ∧
    runsTo (exec (.and 3 1 (.reg 2)) (two 0x00000005 0xFFFFFFFD)) (fun t => t.gr[3] == 0x00000005) = true ∧
    runsTo (exec (.and 3 1 (.reg 2)) (two 0x80000000 0xFFFFFFFF)) (fun t => t.gr[3] == 0x80000000) = true := by decide

theorem test_andc :
    runsTo (exec (.andc 3 1 (.reg 2)) (two 0x7FFFFFFF 0x00000001)) (fun t => t.gr[3] == 0x00000000) = true ∧
    runsTo (exec (.andc 3 1 (.imm 0x0F0F0F0F)) (two 0x12345678 0x0F0F0F0F)) (fun t => t.gr[3] == 0x0D0B0907) = true ∧
    runsTo (exec (.andc 3 1 (.reg 2)) (two 0x00000005 0xFFFFFFFD)) (fun t => t.gr[3] == 0xFFFFFFF8) = true ∧
    runsTo (exec (.andc 3 1 (.reg 2)) (two 0x80000000 0xFFFFFFFF)) (fun t => t.gr[3] == 0x7FFFFFFF) = true := by decide

theorem test_max :
    runsTo (exec (.max 3 1 (.reg 2)) (two 0x7FFFFFFF 0x00000001)) (fun t => t.gr[3] == 0x7FFFFFFF) = true ∧
    runsTo (exec (.max 3 1 (.imm 0x00000001)) (two 0xFFFFFFFF 0x00000001)) (fun t => t.gr[3] == 0x00000001) = true ∧
    runsTo (exec (.max 3 1 (.reg 2)) (two 0x12345678 0x0F0F0F0F)) (fun t => t.gr[3] == 0x12345678) = true ∧
    runsTo (exec (.max 3 1 (.reg 2)) (two 0x00000005 0xFFFFFFFD)) (fun t => t.gr[3] == 0x00000005) = true := by decide

theorem test_maxu :
    runsTo (exec (.maxu 3 1 (.reg 2)) (two 0x7FFFFFFF 0x00000001)) (fun t => t.gr[3] == 0x7FFFFFFF) = true ∧
    runsTo (exec (.maxu 3 1 (.imm 0x00000001)) (two 0xFFFFFFFF 0x00000001)) (fun t => t.gr[3] == 0xFFFFFFFF) = true ∧
    runsTo (exec (.maxu 3 1 (.reg 2)) (two 0x12345678 0x0F0F0F0F)) (fun t => t.gr[3] == 0x12345678) = true ∧
    runsTo (exec (.maxu 3 1 (.reg 2)) (two 0x00000005 0xFFFFFFFD)) (fun t => t.gr[3] == 0xFFFFFFFD) = true := by decide

theorem test_min :
    runsTo (exec (.min 3 1 (.reg 2)) (two 0x7FFFFFFF 0x00000001)) (fun t => t.gr[3] == 0x00000001) = true ∧
    runsTo (exec (.min 3 1 (.imm 0x00000001)) (two 0xFFFFFFFF 0x00000001)) (fun t => t.gr[3] == 0xFFFFFFFF) = true ∧
    runsTo (exec (.min 3 1 (.reg 2)) (two 0x12345678 0x0F0F0F0F)) (fun t => t.gr[3] == 0x0F0F0F0F) = true ∧
    runsTo (exec (.min 3 1 (.reg 2)) (two 0x00000005 0xFFFFFFFD)) (fun t => t.gr[3] == 0xFFFFFFFD) = true := by decide

theorem test_minu :
    runsTo (exec (.minu 3 1 (.reg 2)) (two 0x7FFFFFFF 0x00000001)) (fun t => t.gr[3] == 0x00000001) = true ∧
    runsTo (exec (.minu 3 1 (.imm 0x0F0F0F0F)) (two 0x12345678 0x0F0F0F0F)) (fun t => t.gr[3] == 0x0F0F0F0F) = true ∧
    runsTo (exec (.minu 3 1 (.reg 2)) (two 0x00000005 0xFFFFFFFD)) (fun t => t.gr[3] == 0x00000005) = true ∧
    runsTo (exec (.minu 3 1 (.reg 2)) (two 0x80000000 0xFFFFFFFF)) (fun t => t.gr[3] == 0x80000000) = true := by decide

theorem test_or :
    runsTo (exec (.or 3 1 (.reg 2)) (two 0x7FFFFFFF 0x00000001)) (fun t => t.gr[3] == 0x7FFFFFFF) = true ∧
    runsTo (exec (.or 3 1 (.imm 0x00000001)) (two 0xFFFFFFFF 0x00000001)) (fun t => t.gr[3] == 0xFFFFFFFF) = true ∧
    runsTo (exec (.or 3 1 (.reg 2)) (two 0x12345678 0x0F0F0F0F)) (fun t => t.gr[3] == 0x1F3F5F7F) = true ∧
    runsTo (exec (.or 3 1 (.reg 2)) (two 0x00000005 0xFFFFFFFD)) (fun t => t.gr[3] == 0xFFFFFFFD) = true := by decide

theorem test_orc :
    runsTo (exec (.orc 3 1 (.reg 2)) (two 0x7FFFFFFF 0x00000001)) (fun t => t.gr[3] == 0x80000001) = true ∧
    runsTo (exec (.orc 3 1 (.imm 0x00000001)) (two 0xFFFFFFFF 0x00000001)) (fun t => t.gr[3] == 0x00000001) = true ∧
    runsTo (exec (.orc 3 1 (.reg 2)) (two 0x12345678 0x0F0F0F0F)) (fun t => t.gr[3] == 0xEFCFAF8F) = true ∧
    runsTo (exec (.orc 3 1 (.reg 2)) (two 0x00000005 0xFFFFFFFD)) (fun t => t.gr[3] == 0xFFFFFFFF) = true := by decide

theorem test_sh1add :
    runsTo (exec (.sh1add 3 1 (.reg 2)) (two 0x7FFFFFFF 0x00000001)) (fun t => t.gr[3] == 0xFFFFFFFF) = true ∧
    runsTo (exec (.sh1add 3 1 (.imm 0x0F0F0F0F)) (two 0x12345678 0x0F0F0F0F)) (fun t => t.gr[3] == 0x3377BBFF) = true ∧
    runsTo (exec (.sh1add 3 1 (.reg 2)) (two 0x00000005 0xFFFFFFFD)) (fun t => t.gr[3] == 0x00000007) = true ∧
    runsTo (exec (.sh1add 3 1 (.reg 2)) (two 0x00000000 0x00000000)) (fun t => t.gr[3] == 0x00000000) = true := by decide

theorem test_sh2add :
    runsTo (exec (.sh2add 3 1 (.reg 2)) (two 0x7FFFFFFF 0x00000001)) (fun t => t.gr[3] == 0xFFFFFFFD) = true ∧
    runsTo (exec (.sh2add 3 1 (.imm 0x0F0F0F0F)) (two 0x12345678 0x0F0F0F0F)) (fun t => t.gr[3] == 0x57E068EF) = true ∧
    runsTo (exec (.sh2add 3 1 (.reg 2)) (two 0x00000005 0xFFFFFFFD)) (fun t => t.gr[3] == 0x00000011) = true ∧
    runsTo (exec (.sh2add 3 1 (.reg 2)) (two 0x80000000 0xFFFFFFFF)) (fun t => t.gr[3] == 0xFFFFFFFF) = true := by decide

theorem test_sh3add :
    runsTo (exec (.sh3add 3 1 (.reg 2)) (two 0x7FFFFFFF 0x00000001)) (fun t => t.gr[3] == 0xFFFFFFF9) = true ∧
    runsTo (exec (.sh3add 3 1 (.imm 0x0F0F0F0F)) (two 0x12345678 0x0F0F0F0F)) (fun t => t.gr[3] == 0xA0B1C2CF) = true ∧
    runsTo (exec (.sh3add 3 1 (.reg 2)) (two 0x00000005 0xFFFFFFFD)) (fun t => t.gr[3] == 0x00000025) = true ∧
    runsTo (exec (.sh3add 3 1 (.reg 2)) (two 0x80000000 0xFFFFFFFF)) (fun t => t.gr[3] == 0xFFFFFFFF) = true := by decide

theorem test_sh4add :
    runsTo (exec (.sh4add 3 1 (.reg 2)) (two 0x7FFFFFFF 0x00000001)) (fun t => t.gr[3] == 0xFFFFFFF1) = true ∧
    runsTo (exec (.sh4add 3 1 (.imm 0x0F0F0F0F)) (two 0x12345678 0x0F0F0F0F)) (fun t => t.gr[3] == 0x3254768F) = true ∧
    runsTo (exec (.sh4add 3 1 (.reg 2)) (two 0x00000005 0xFFFFFFFD)) (fun t => t.gr[3] == 0x0000004D) = true ∧
    runsTo (exec (.sh4add 3 1 (.reg 2)) (two 0x80000000 0xFFFFFFFF)) (fun t => t.gr[3] == 0xFFFFFFFF) = true := by decide

theorem test_sub :
    runsTo (exec (.sub 3 (.reg 2) 1) (two 0x7FFFFFFF 0x00000001)) (fun t => t.gr[3] == 0x80000002) = true ∧
    runsTo (exec (.sub 3 (.imm 0x00000001) 1) (two 0xFFFFFFFF 0x00000001)) (fun t => t.gr[3] == 0x00000002) = true ∧
    runsTo (exec (.sub 3 (.reg 2) 1) (two 0x12345678 0x0F0F0F0F)) (fun t => t.gr[3] == 0xFCDAB897) = true ∧
    runsTo (exec (.sub 3 (.reg 2) 1) (two 0x00000005 0xFFFFFFFD)) (fun t => t.gr[3] == 0xFFFFFFF8) = true := by decide

theorem test_xor :
    runsTo (exec (.xor 3 1 (.reg 2)) (two 0x7FFFFFFF 0x00000001)) (fun t => t.gr[3] == 0x7FFFFFFE) = true ∧
    runsTo (exec (.xor 3 1 (.imm 0x00000001)) (two 0xFFFFFFFF 0x00000001)) (fun t => t.gr[3] == 0xFFFFFFFE) = true ∧
    runsTo (exec (.xor 3 1 (.reg 2)) (two 0x12345678 0x0F0F0F0F)) (fun t => t.gr[3] == 0x1D3B5977) = true ∧
    runsTo (exec (.xor 3 1 (.reg 2)) (two 0x00000005 0xFFFFFFFD)) (fun t => t.gr[3] == 0xFFFFFFF8) = true := by decide

theorem test_shl :
    runsTo (exec (.shl 3 1 (.reg 2)) (two 0x80000001 0x00000000)) (fun t => t.gr[3] == 0x80000001) = true ∧
    runsTo (exec (.shl 3 1 (.imm 0x00000001)) (two 0x80000001 0x00000001)) (fun t => t.gr[3] == 0x00000002) = true ∧
    runsTo (exec (.shl 3 1 (.reg 2)) (two 0x80000001 0x0000001F)) (fun t => t.gr[3] == 0x80000000) = true ∧
    runsTo (exec (.shl 3 1 (.reg 2)) (two 0x12345678 0x00000004)) (fun t => t.gr[3] == 0x23456780) = true := by decide

theorem test_shr :
    runsTo (exec (.shr 3 1 (.reg 2)) (two 0x80000001 0x00000000)) (fun t => t.gr[3] == 0x80000001) = true ∧
    runsTo (exec (.shr 3 1 (.imm 0x00000001)) (two 0x80000001 0x00000001)) (fun t => t.gr[3] == 0xC0000000) = true ∧
    runsTo (exec (.shr 3 1 (.reg 2)) (two 0x80000001 0x0000001F)) (fun t => t.gr[3] == 0xFFFFFFFF) = true ∧
    runsTo (exec (.shr 3 1 (.reg 2)) (two 0x12345678 0x00000004)) (fun t => t.gr[3] == 0x01234567) = true := by decide

theorem test_shru :
    runsTo (exec (.shru 3 1 (.reg 2)) (two 0x80000001 0x00000000)) (fun t => t.gr[3] == 0x80000001) = true ∧
    runsTo (exec (.shru 3 1 (.imm 0x00000001)) (two 0x80000001 0x00000001)) (fun t => t.gr[3] == 0x40000000) = true ∧
    runsTo (exec (.shru 3 1 (.reg 2)) (two 0x80000001 0x0000001F)) (fun t => t.gr[3] == 0x00000001) = true ∧
    runsTo (exec (.shru 3 1 (.reg 2)) (two 0x12345678 0x00000004)) (fun t => t.gr[3] == 0x01234567) = true := by decide

theorem test_sxtb :
    runsTo (exec (.sxtb 3 1) (two 0x00000080 0)) (fun t => t.gr[3] == 0xFFFFFF80) = true ∧
    runsTo (exec (.sxtb 3 1) (two 0x00008000 0)) (fun t => t.gr[3] == 0x00000000) = true ∧
    runsTo (exec (.sxtb 3 1) (two 0x1234FFFF 0)) (fun t => t.gr[3] == 0xFFFFFFFF) = true ∧
    runsTo (exec (.sxtb 3 1) (two 0x0000007F 0)) (fun t => t.gr[3] == 0x0000007F) = true := by decide

theorem test_sxth :
    runsTo (exec (.sxth 3 1) (two 0x00000080 0)) (fun t => t.gr[3] == 0x00000080) = true ∧
    runsTo (exec (.sxth 3 1) (two 0x12345680 0)) (fun t => t.gr[3] == 0x00005680) = true ∧
    runsTo (exec (.sxth 3 1) (two 0x00008000 0)) (fun t => t.gr[3] == 0xFFFF8000) = true ∧
    runsTo (exec (.sxth 3 1) (two 0x1234FFFF 0)) (fun t => t.gr[3] == 0xFFFFFFFF) = true := by decide

theorem test_zxtb :
    runsTo (exec (.zxtb 3 1) (two 0x00000080 0)) (fun t => t.gr[3] == 0x00000080) = true ∧
    runsTo (exec (.zxtb 3 1) (two 0x00008000 0)) (fun t => t.gr[3] == 0x00000000) = true ∧
    runsTo (exec (.zxtb 3 1) (two 0x1234FFFF 0)) (fun t => t.gr[3] == 0x000000FF) = true ∧
    runsTo (exec (.zxtb 3 1) (two 0x0000007F 0)) (fun t => t.gr[3] == 0x0000007F) = true := by decide

theorem test_zxth :
    runsTo (exec (.zxth 3 1) (two 0x00000080 0)) (fun t => t.gr[3] == 0x00000080) = true ∧
    runsTo (exec (.zxth 3 1) (two 0x12345680 0)) (fun t => t.gr[3] == 0x00005680) = true ∧
    runsTo (exec (.zxth 3 1) (two 0x00008000 0)) (fun t => t.gr[3] == 0x00008000) = true ∧
    runsTo (exec (.zxth 3 1) (two 0x1234FFFF 0)) (fun t => t.gr[3] == 0x0000FFFF) = true := by decide

theorem test_mov :
    runsTo (exec (.mov 3 1) (two 0x00000080 0)) (fun t => t.gr[3] == 0x00000080) = true ∧
    runsTo (exec (.mov 3 1) (two 0x12345680 0)) (fun t => t.gr[3] == 0x12345680) = true ∧
    runsTo (exec (.mov 3 1) (two 0x00008000 0)) (fun t => t.gr[3] == 0x00008000) = true ∧
    runsTo (exec (.mov 3 1) (two 0xFFFF8000 0)) (fun t => t.gr[3] == 0xFFFF8000) = true := by decide

theorem test_cmpeq :
    runsTo (exec (.cmpeq (.gr 3) 1 (.reg 2)) (two 0x00000000 0x00000000)) (fun t => t.gr[3] == 1) = true ∧
    runsTo (exec (.cmpeq (.br 3) 1 (.imm 0xFFFFFFFF)) (two 0x00000001 0)) (fun t => t.br[3] == false) = true ∧
    runsTo (exec (.cmpeq (.gr 3) 1 (.reg 2)) (two 0xFFFFFFFF 0x00000001)) (fun t => t.gr[3] == 0) = true ∧
    runsTo (exec (.cmpeq (.br 3) 1 (.imm 0x7FFFFFFF)) (two 0x80000000 0)) (fun t => t.br[3] == false) = true ∧
    runsTo (exec (.cmpeq (.gr 3) 1 (.reg 2)) (two 0x00000005 0x00000005)) (fun t => t.gr[3] == 1) = true ∧
    runsTo (exec (.cmpeq (.br 3) 1 (.imm 0x80000000)) (two 0x7FFFFFFF 0)) (fun t => t.br[3] == false) = true := by decide

theorem test_cmpge :
    runsTo (exec (.cmpge (.gr 3) 1 (.reg 2)) (two 0x00000000 0x00000000)) (fun t => t.gr[3] == 1) = true ∧
    runsTo (exec (.cmpge (.br 3) 1 (.imm 0xFFFFFFFF)) (two 0x00000001 0)) (fun t => t.br[3] == true) = true ∧
    runsTo (exec (.cmpge (.gr 3) 1 (.reg 2)) (two 0xFFFFFFFF 0x00000001)) (fun t => t.gr[3] == 0) = true ∧
    runsTo (exec (.cmpge (.br 3) 1 (.imm 0x7FFFFFFF)) (two 0x80000000 0)) (fun t => t.br[3] == false) = true ∧
    runsTo (exec (.cmpge (.gr 3) 1 (.reg 2)) (two 0x00000005 0x00000005)) (fun t => t.gr[3] == 1) = true ∧
    runsTo (exec (.cmpge (.br 3) 1 (.imm 0x80000000)) (two 0x7FFFFFFF 0)) (fun t => t.br[3] == true) = true := by decide

theorem test_cmpgeu :
    runsTo (exec (.cmpgeu (.gr 3) 1 (.reg 2)) (two 0x00000000 0x00000000)) (fun t => t.gr[3] == 1) = true ∧
    runsTo (exec (.cmpgeu (.br 3) 1 (.imm 0xFFFFFFFF)) (two 0x00000001 0)) (fun t => t.br[3] == false) = true ∧
    runsTo (exec (.cmpgeu (.gr 3) 1 (.reg 2)) (two 0xFFFFFFFF 0x00000001)) (fun t => t.gr[3] == 1) = true ∧
    runsTo (exec (.cmpgeu (.br 3) 1 (.imm 0x7FFFFFFF)) (two 0x80000000 0)) (fun t => t.br[3] == true) = true ∧
    runsTo (exec (.cmpgeu (.gr 3) 1 (.reg 2)) (two 0x00000005 0x00000005)) (fun t => t.gr[3] == 1) = true ∧
    runsTo (exec (.cmpgeu (.br 3) 1 (.imm 0x80000000)) (two 0x7FFFFFFF 0)) (fun t => t.br[3] == false) = true := by decide

theorem test_cmpgt :
    runsTo (exec (.cmpgt (.gr 3) 1 (.reg 2)) (two 0x00000000 0x00000000)) (fun t => t.gr[3] == 0) = true ∧
    runsTo (exec (.cmpgt (.br 3) 1 (.imm 0xFFFFFFFF)) (two 0x00000001 0)) (fun t => t.br[3] == true) = true ∧
    runsTo (exec (.cmpgt (.gr 3) 1 (.reg 2)) (two 0xFFFFFFFF 0x00000001)) (fun t => t.gr[3] == 0) = true ∧
    runsTo (exec (.cmpgt (.br 3) 1 (.imm 0x7FFFFFFF)) (two 0x80000000 0)) (fun t => t.br[3] == false) = true ∧
    runsTo (exec (.cmpgt (.gr 3) 1 (.reg 2)) (two 0x00000005 0x00000005)) (fun t => t.gr[3] == 0) = true ∧
    runsTo (exec (.cmpgt (.br 3) 1 (.imm 0x80000000)) (two 0x7FFFFFFF 0)) (fun t => t.br[3] == true) = true := by decide

theorem test_cmpgtu :
    runsTo (exec (.cmpgtu (.gr 3) 1 (.reg 2)) (two 0x00000000 0x00000000)) (fun t => t.gr[3] == 0) = true ∧
    runsTo (exec (.cmpgtu (.br 3) 1 (.imm 0xFFFFFFFF)) (two 0x00000001 0)) (fun t => t.br[3] == false) = true ∧
    runsTo (exec (.cmpgtu (.gr 3) 1 (.reg 2)) (two 0xFFFFFFFF 0x00000001)) (fun t => t.gr[3] == 1) = true ∧
    runsTo (exec (.cmpgtu (.br 3) 1 (.imm 0x7FFFFFFF)) (two 0x80000000 0)) (fun t => t.br[3] == true) = true ∧
    runsTo (exec (.cmpgtu (.gr 3) 1 (.reg 2)) (two 0x00000005 0x00000005)) (fun t => t.gr[3] == 0) = true ∧
    runsTo (exec (.cmpgtu (.br 3) 1 (.imm 0x80000000)) (two 0x7FFFFFFF 0)) (fun t => t.br[3] == false) = true := by decide

theorem test_cmple :
    runsTo (exec (.cmple (.gr 3) 1 (.reg 2)) (two 0x00000000 0x00000000)) (fun t => t.gr[3] == 1) = true ∧
    runsTo (exec (.cmple (.br 3) 1 (.imm 0xFFFFFFFF)) (two 0x00000001 0)) (fun t => t.br[3] == false) = true ∧
    runsTo (exec (.cmple (.gr 3) 1 (.reg 2)) (two 0xFFFFFFFF 0x00000001)) (fun t => t.gr[3] == 1) = true ∧
    runsTo (exec (.cmple (.br 3) 1 (.imm 0x7FFFFFFF)) (two 0x80000000 0)) (fun t => t.br[3] == true) = true ∧
    runsTo (exec (.cmple (.gr 3) 1 (.reg 2)) (two 0x00000005 0x00000005)) (fun t => t.gr[3] == 1) = true ∧
    runsTo (exec (.cmple (.br 3) 1 (.imm 0x80000000)) (two 0x7FFFFFFF 0)) (fun t => t.br[3] == false) = true := by decide

theorem test_cmpleu :
    runsTo (exec (.cmpleu (.gr 3) 1 (.reg 2)) (two 0x00000000 0x00000000)) (fun t => t.gr[3] == 1) = true ∧
    runsTo (exec (.cmpleu (.br 3) 1 (.imm 0xFFFFFFFF)) (two 0x00000001 0)) (fun t => t.br[3] == true) = true ∧
    runsTo (exec (.cmpleu (.gr 3) 1 (.reg 2)) (two 0xFFFFFFFF 0x00000001)) (fun t => t.gr[3] == 0) = true ∧
    runsTo (exec (.cmpleu (.br 3) 1 (.imm 0x7FFFFFFF)) (two 0x80000000 0)) (fun t => t.br[3] == false) = true ∧
    runsTo (exec (.cmpleu (.gr 3) 1 (.reg 2)) (two 0x00000005 0x00000005)) (fun t => t.gr[3] == 1) = true ∧
    runsTo (exec (.cmpleu (.br 3) 1 (.imm 0x80000000)) (two 0x7FFFFFFF 0)) (fun t => t.br[3] == true) = true := by decide

theorem test_cmplt :
    runsTo (exec (.cmplt (.gr 3) 1 (.reg 2)) (two 0x00000000 0x00000000)) (fun t => t.gr[3] == 0) = true ∧
    runsTo (exec (.cmplt (.br 3) 1 (.imm 0xFFFFFFFF)) (two 0x00000001 0)) (fun t => t.br[3] == false) = true ∧
    runsTo (exec (.cmplt (.gr 3) 1 (.reg 2)) (two 0xFFFFFFFF 0x00000001)) (fun t => t.gr[3] == 1) = true ∧
    runsTo (exec (.cmplt (.br 3) 1 (.imm 0x7FFFFFFF)) (two 0x80000000 0)) (fun t => t.br[3] == true) = true ∧
    runsTo (exec (.cmplt (.gr 3) 1 (.reg 2)) (two 0x00000005 0x00000005)) (fun t => t.gr[3] == 0) = true ∧
    runsTo (exec (.cmplt (.br 3) 1 (.imm 0x80000000)) (two 0x7FFFFFFF 0)) (fun t => t.br[3] == false) = true := by decide

theorem test_cmpltu :
    runsTo (exec (.cmpltu (.gr 3) 1 (.reg 2)) (two 0x00000000 0x00000000)) (fun t => t.gr[3] == 0) = true ∧
    runsTo (exec (.cmpltu (.br 3) 1 (.imm 0xFFFFFFFF)) (two 0x00000001 0)) (fun t => t.br[3] == true) = true ∧
    runsTo (exec (.cmpltu (.gr 3) 1 (.reg 2)) (two 0xFFFFFFFF 0x00000001)) (fun t => t.gr[3] == 0) = true ∧
    runsTo (exec (.cmpltu (.br 3) 1 (.imm 0x7FFFFFFF)) (two 0x80000000 0)) (fun t => t.br[3] == false) = true ∧
    runsTo (exec (.cmpltu (.gr 3) 1 (.reg 2)) (two 0x00000005 0x00000005)) (fun t => t.gr[3] == 0) = true ∧
    runsTo (exec (.cmpltu (.br 3) 1 (.imm 0x80000000)) (two 0x7FFFFFFF 0)) (fun t => t.br[3] == true) = true := by decide

theorem test_cmpne :
    runsTo (exec (.cmpne (.gr 3) 1 (.reg 2)) (two 0x00000000 0x00000000)) (fun t => t.gr[3] == 0) = true ∧
    runsTo (exec (.cmpne (.br 3) 1 (.imm 0xFFFFFFFF)) (two 0x00000001 0)) (fun t => t.br[3] == true) = true ∧
    runsTo (exec (.cmpne (.gr 3) 1 (.reg 2)) (two 0xFFFFFFFF 0x00000001)) (fun t => t.gr[3] == 1) = true ∧
    runsTo (exec (.cmpne (.br 3) 1 (.imm 0x7FFFFFFF)) (two 0x80000000 0)) (fun t => t.br[3] == true) = true ∧
    runsTo (exec (.cmpne (.gr 3) 1 (.reg 2)) (two 0x00000005 0x00000005)) (fun t => t.gr[3] == 0) = true ∧
    runsTo (exec (.cmpne (.br 3) 1 (.imm 0x80000000)) (two 0x7FFFFFFF 0)) (fun t => t.br[3] == true) = true := by decide

theorem test_nandl :
    runsTo (exec (.nandl (.gr 3) 1 (.reg 2)) (two 0x00000000 0x00000000)) (fun t => t.gr[3] == 1) = true ∧
    runsTo (exec (.nandl (.br 3) 1 (.imm 0x00000007)) (two 0x00000000 0)) (fun t => t.br[3] == true) = true ∧
    runsTo (exec (.nandl (.gr 3) 1 (.reg 2)) (two 0x80000000 0x00000000)) (fun t => t.gr[3] == 1) = true ∧
    runsTo (exec (.nandl (.br 3) 1 (.imm 0x00000004)) (two 0x00000002 0)) (fun t => t.br[3] == false) = true ∧
    runsTo (exec (.nandl (.gr 3) 1 (.reg 2)) (two 0xFFFFFFFF 0xFFFFFFFF)) (fun t => t.gr[3] == 0) = true := by decide

theorem test_norl :
    runsTo (exec (.norl (.gr 3) 1 (.reg 2)) (two 0x00000000 0x00000000)) (fun t => t.gr[3] == 1) = true ∧
    runsTo (exec (.norl (.br 3) 1 (.imm 0x00000007)) (two 0x00000000 0)) (fun t => t.br[3] == false) = true ∧
    runsTo (exec (.norl (.gr 3) 1 (.reg 2)) (two 0x80000000 0x00000000)) (fun t => t.gr[3] == 0) = true ∧
    runsTo (exec (.norl (.br 3) 1 (.imm 0x00000004)) (two 0x00000002 0)) (fun t => t.br[3] == false) = true ∧
    runsTo (exec (.norl (.gr 3) 1 (.reg 2)) (two 0xFFFFFFFF 0xFFFFFFFF)) (fun t => t.gr[3] == 0) = true := by decide

theorem test_orl :
    runsTo (exec (.orl (.gr 3) 1 (.reg 2)) (two 0x00000000 0x00000000)) (fun t => t.gr[3] == 0) = true ∧
    runsTo (exec (.orl (.br 3) 1 (.imm 0x00000007)) (two 0x00000000 0)) (fun t => t.br[3] == true) = true ∧
    runsTo (exec (.orl (.gr 3) 1 (.reg 2)) (two 0x80000000 0x00000000)) (fun t => t.gr[3] == 1) = true ∧
    runsTo (exec (.orl (.br 3) 1 (.imm 0x00000004)) (two 0x00000002 0)) (fun t => t.br[3] == true) = true ∧
    runsTo (exec (.orl (.gr 3) 1 (.reg 2)) (two 0xFFFFFFFF 0xFFFFFFFF)) (fun t => t.gr[3] == 1) = true := by decide

theorem test_andl :
    runsTo (exec (.andl (.gr 3) 1 (.reg 2)) (two 0x00000000 0x00000000)) (fun t => t.gr[3] == 0) = true ∧
    runsTo (exec (.andl (.br 3) 1 (.imm 0x00000007)) (two 0x00000000 0)) (fun t => t.br[3] == false) = true ∧
    runsTo (exec (.andl (.gr 3) 1 (.reg 2)) (two 0x80000000 0x00000000)) (fun t => t.gr[3] == 0) = true ∧
    runsTo (exec (.andl (.br 3) 1 (.imm 0x00000004)) (two 0x00000002 0)) (fun t => t.br[3] == true) = true ∧
    runsTo (exec (.andl (.gr 3) 1 (.reg 2)) (two 0xFFFFFFFF 0xFFFFFFFF)) (fun t => t.gr[3] == 1) = true := by decide

theorem test_mtb :
    runsTo (exec (.mtb 3 1) (two 0 0)) (fun t => t.br[3] == false) = true ∧
    runsTo (exec (.mtb 3 1) (two 2 0)) (fun t => t.br[3] == true) = true ∧
    runsTo (exec (.mtb 3 1) (two 0x80000000 0)) (fun t => t.br[3] == true) = true := by decide

theorem test_slct :
    runsTo (exec (.slct 3 4 1 (.reg 2)) (twoAnd 0xAAAAAAAA 0x55555555 true)) (fun t => t.gr[3] == 0xAAAAAAAA) = true ∧
    runsTo (exec (.slct 3 4 1 (.reg 2)) (twoAnd 0xAAAAAAAA 0x55555555 false)) (fun t => t.gr[3] == 0x55555555) = true ∧
    runsTo (exec (.slct 3 4 1 (.imm 0)) (twoAnd 0x00000001 0 true)) (fun t => t.gr[3] == 0x00000001) = true ∧
    runsTo (exec (.slct 3 4 1 (.imm 0)) (twoAnd 0x00000001 0 false)) (fun t => t.gr[3] == 0x00000000) = true := by decide

theorem test_slctf :
    runsTo (exec (.slctf 3 4 1 (.reg 2)) (twoAnd 0xAAAAAAAA 0x55555555 true)) (fun t => t.gr[3] == 0x55555555) = true ∧
    runsTo (exec (.slctf 3 4 1 (.reg 2)) (twoAnd 0xAAAAAAAA 0x55555555 false)) (fun t => t.gr[3] == 0xAAAAAAAA) = true ∧
    runsTo (exec (.slctf 3 4 1 (.imm (-1))) (twoAnd 0x00000007 0 false)) (fun t => t.gr[3] == 0x00000007) = true ∧
    runsTo (exec (.slctf 3 4 1 (.imm (-1))) (twoAnd 0x00000007 0 true)) (fun t => t.gr[3] == 0xFFFFFFFF) = true := by decide

theorem test_addcg :
    runsTo (exec (.addcg 3 5 4 1 2) (twoAnd 0xFFFFFFFF 0x00000001 false))
      (fun t => t.gr[3] == 0x00000000 && t.br[5] == true) = true ∧
    runsTo (exec (.addcg 3 5 4 1 2) (twoAnd 0xFFFFFFFF 0x00000000 true))
      (fun t => t.gr[3] == 0x00000000 && t.br[5] == true) = true ∧
    runsTo (exec (.addcg 3 5 4 1 2) (twoAnd 0xFFFFFFFF 0xFFFFFFFF true))
      (fun t => t.gr[3] == 0xFFFFFFFF && t.br[5] == true) = true ∧
    runsTo (exec (.addcg 3 5 4 1 2) (twoAnd 0x00000001 0x00000002 true))
      (fun t => t.gr[3] == 0x00000004 && t.br[5] == false) = true ∧
    runsTo (exec (.addcg 3 5 4 1 2) (twoAnd 0x7FFFFFFF 0x80000000 false))
      (fun t => t.gr[3] == 0xFFFFFFFF && t.br[5] == false) = true ∧
    runsTo (exec (.addcg 3 5 4 1 2) (twoAnd 0x7FFFFFFF 0x80000000 true))
      (fun t => t.gr[3] == 0x00000000 && t.br[5] == true) = true := by decide

theorem test_divs :
    runsTo (exec (.divs 3 5 4 1 2) (twoAnd 0x00000000 0x00000003 false))
      (fun t => t.gr[3] == 0xFFFFFFFD && t.br[5] == false) = true ∧
    runsTo (exec (.divs 3 5 4 1 2) (twoAnd 0x00000000 0x00000003 true))
      (fun t => t.gr[3] == 0xFFFFFFFE && t.br[5] == false) = true ∧
    runsTo (exec (.divs 3 5 4 1 2) (twoAnd 0x00000007 0x00000003 true))
      (fun t => t.gr[3] == 0x0000000C && t.br[5] == false) = true ∧
    runsTo (exec (.divs 3 5 4 1 2) (twoAnd 0x80000000 0x00000003 false))
      (fun t => t.gr[3] == 0x00000003 && t.br[5] == true) = true ∧
    runsTo (exec (.divs 3 5 4 1 2) (twoAnd 0xFFFFFFFD 0x00000003 true))
      (fun t => t.gr[3] == 0xFFFFFFFE && t.br[5] == true) = true ∧
    runsTo (exec (.divs 3 5 4 1 2) (twoAnd 0x40000000 0x80000000 false))
      (fun t => t.gr[3] == 0x00000000 && t.br[5] == false) = true := by decide

theorem test_mpyll :
    runsTo (exec (.mpyll 3 1 (.reg 2)) (two 0x8000FFFF 0xFFFF0002)) (fun t => t.gr[3] == 0xFFFFFFFE) = true ∧
    runsTo (exec (.mpyll 3 1 (.imm 0xFFFFFFF9)) (two 0x00000064 0xFFFFFFF9)) (fun t => t.gr[3] == 0xFFFFFD44) = true ∧
    runsTo (exec (.mpyll 3 1 (.reg 2)) (two 0x12345678 0x9ABCDEF0)) (fun t => t.gr[3] == 0xF4D52080) = true ∧
    runsTo (exec (.mpyll 3 1 (.reg 2)) (two 0xFFFF8000 0x7FFF8000)) (fun t => t.gr[3] == 0x40000000) = true := by decide

theorem test_mpyllu :
    runsTo (exec (.mpyllu 3 1 (.reg 2)) (two 0x8000FFFF 0xFFFF0002)) (fun t => t.gr[3] == 0x0001FFFE) = true ∧
    runsTo (exec (.mpyllu 3 1 (.imm 0xFFFFFFF9)) (two 0x00000064 0xFFFFFFF9)) (fun t => t.gr[3] == 0x0063FD44) = true ∧
    runsTo (exec (.mpyllu 3 1 (.reg 2)) (two 0x12345678 0x9ABCDEF0)) (fun t => t.gr[3] == 0x4B4D2080) = true ∧
    runsTo (exec (.mpyllu 3 1 (.reg 2)) (two 0xFFFF8000 0x7FFF8000)) (fun t => t.gr[3] == 0x40000000) = true := by decide

theorem test_mpylh :
    runsTo (exec (.mpylh 3 1 (.reg 2)) (two 0x8000FFFF 0xFFFF0002)) (fun t => t.gr[3] == 0x00000001) = true ∧
    runsTo (exec (.mpylh 3 1 (.imm 0xFFFFFFF9)) (two 0x00000064 0xFFFFFFF9)) (fun t => t.gr[3] == 0xFFFFFF9C) = true ∧
    runsTo (exec (.mpylh 3 1 (.reg 2)) (two 0x12345678 0x9ABCDEF0)) (fun t => t.gr[3] == 0xDDCBB020) = true ∧
    runsTo (exec (.mpylh 3 1 (.reg 2)) (two 0xFFFF8000 0x7FFF8000)) (fun t => t.gr[3] == 0xC0008000) = true := by decide

theorem test_mpylhu :
    runsTo (exec (.mpylhu 3 1 (.reg 2)) (two 0x8000FFFF 0xFFFF0002)) (fun t => t.gr[3] == 0xFFFE0001) = true ∧
    runsTo (exec (.mpylhu 3 1 (.imm 0xFFFFFFF9)) (two 0x00000064 0xFFFFFFF9)) (fun t => t.gr[3] == 0x0063FF9C) = true ∧
    runsTo (exec (.mpylhu 3 1 (.reg 2)) (two 0x12345678 0x9ABCDEF0)) (fun t => t.gr[3] == 0x3443B020) = true ∧
    runsTo (exec (.mpylhu 3 1 (.reg 2)) (two 0xFFFF8000 0x7FFF8000)) (fun t => t.gr[3] == 0x3FFF8000) = true := by decide

theorem test_mpyhh :
    runsTo (exec (.mpyhh 3 1 (.reg 2)) (two 0x8000FFFF 0xFFFF0002)) (fun t => t.gr[3] == 0x00008000) = true ∧
    runsTo (exec (.mpyhh 3 1 (.imm 0xFFFFFFF9)) (two 0x00000064 0xFFFFFFF9)) (fun t => t.gr[3] == 0x00000000) = true ∧
    runsTo (exec (.mpyhh 3 1 (.reg 2)) (two 0x12345678 0x9ABCDEF0)) (fun t => t.gr[3] == 0xF8CCA630) = true ∧
    runsTo (exec (.mpyhh 3 1 (.reg 2)) (two 0xFFFF8000 0x7FFF8000)) (fun t => t.gr[3] == 0xFFFF8001) = true := by decide

theorem test_mpyhhu :
    runsTo (exec (.mpyhhu 3 1 (.reg 2)) (two 0x8000FFFF 0xFFFF0002)) (fun t => t.gr[3] == 0x7FFF8000) = true ∧
    runsTo (exec (.mpyhhu 3 1 (.imm 0xFFFFFFF9)) (two 0x00000064 0xFFFFFFF9)) (fun t => t.gr[3] == 0x00000000) = true ∧
    runsTo (exec (.mpyhhu 3 1 (.reg 2)) (two 0x12345678 0x9ABCDEF0)) (fun t => t.gr[3] == 0x0B00A630) = true ∧
    runsTo (exec (.mpyhhu 3 1 (.reg 2)) (two 0xFFFF8000 0x7FFF8000)) (fun t => t.gr[3] == 0x7FFE8001) = true := by decide

theorem test_mpyl :
    runsTo (exec (.mpyl 3 1 (.reg 2)) (two 0x8000FFFF 0xFFFF0002)) (fun t => t.gr[3] == 0x0001FFFE) = true ∧
    runsTo (exec (.mpyl 3 1 (.imm 0xFFFFFFF9)) (two 0x00000064 0xFFFFFFF9)) (fun t => t.gr[3] == 0xFFFFFD44) = true ∧
    runsTo (exec (.mpyl 3 1 (.reg 2)) (two 0x12345678 0x9ABCDEF0)) (fun t => t.gr[3] == 0x1D952080) = true ∧
    runsTo (exec (.mpyl 3 1 (.reg 2)) (two 0xFFFF8000 0x7FFF8000)) (fun t => t.gr[3] == 0x40000000) = true := by decide

theorem test_mpylu :
    runsTo (exec (.mpylu 3 1 (.reg 2)) (two 0x8000FFFF 0xFFFF0002)) (fun t => t.gr[3] == 0x0001FFFE) = true ∧
    runsTo (exec (.mpylu 3 1 (.imm 0xFFFFFFF9)) (two 0x00000064 0xFFFFFFF9)) (fun t => t.gr[3] == 0x0063FD44) = true ∧
    runsTo (exec (.mpylu 3 1 (.reg 2)) (two 0x12345678 0x9ABCDEF0)) (fun t => t.gr[3] == 0x740D2080) = true ∧
    runsTo (exec (.mpylu 3 1 (.reg 2)) (two 0xFFFF8000 0x7FFF8000)) (fun t => t.gr[3] == 0xC0000000) = true := by decide

theorem test_mpyh :
    runsTo (exec (.mpyh 3 1 (.reg 2)) (two 0x8000FFFF 0xFFFF0002)) (fun t => t.gr[3] == 0x7FFF0001) = true ∧
    runsTo (exec (.mpyh 3 1 (.imm 0xFFFFFFF9)) (two 0x00000064 0xFFFFFFF9)) (fun t => t.gr[3] == 0xFFFFFF9C) = true ∧
    runsTo (exec (.mpyh 3 1 (.reg 2)) (two 0x12345678 0x9ABCDEF0)) (fun t => t.gr[3] == 0x83FBB020) = true ∧
    runsTo (exec (.mpyh 3 1 (.reg 2)) (two 0xFFFF8000 0x7FFF8000)) (fun t => t.gr[3] == 0xC0008000) = true := by decide

theorem test_mpyhu :
    runsTo (exec (.mpyhu 3 1 (.reg 2)) (two 0x8000FFFF 0xFFFF0002)) (fun t => t.gr[3] == 0x7FFE0001) = true ∧
    runsTo (exec (.mpyhu 3 1 (.imm 0xFFFFFFF9)) (two 0x00000064 0xFFFFFFF9)) (fun t => t.gr[3] == 0x0063FF9C) = true ∧
    runsTo (exec (.mpyhu 3 1 (.reg 2)) (two 0x12345678 0x9ABCDEF0)) (fun t => t.gr[3] == 0xDA73B020) = true ∧
    runsTo (exec (.mpyhu 3 1 (.reg 2)) (two 0xFFFF8000 0x7FFF8000)) (fun t => t.gr[3] == 0xC0008000) = true := by decide

theorem test_mpyhs :
    runsTo (exec (.mpyhs 3 1 (.reg 2)) (two 0x8000FFFF 0xFFFF0002)) (fun t => t.gr[3] == 0x00010000) = true ∧
    runsTo (exec (.mpyhs 3 1 (.imm 0xFFFFFFF9)) (two 0x00000064 0xFFFFFFF9)) (fun t => t.gr[3] == 0xFF9C0000) = true ∧
    runsTo (exec (.mpyhs 3 1 (.reg 2)) (two 0x12345678 0x9ABCDEF0)) (fun t => t.gr[3] == 0xB0200000) = true ∧
    runsTo (exec (.mpyhs 3 1 (.reg 2)) (two 0xFFFF8000 0x7FFF8000)) (fun t => t.gr[3] == 0x80000000) = true := by decide

/-- A shift by 32 writes its target, drawn from outside: the value is not known here (S17). -/
theorem test_shift_beyond_width :
    runsTo (exec (.shl 3 1 (.imm 32)) (two 1 0)) (fun t => t.grWritten[3] && t.pc == 1 && t.draws == 1) = true := by decide

/-! ### Memory and control (sections 2.6 and 2.7) -/

theorem test_ldw :
    runsTo (exec (.ldw 2 0 1) start) (fun t => t.gr[2] == 0x80017FFE) = true ∧
    runsTo (exec (.ldw 2 4 1) start) (fun t => t.gr[2] == 0xFF001234) = true ∧
    raises (exec (.ldw 2 2 1) start) (.misaligned 0x12 4) = true := by decide

theorem test_ldh :
    runsTo (exec (.ldh 2 0 1) start) (fun t => t.gr[2] == 0xFFFF8001) = true ∧
    runsTo (exec (.ldh 2 2 1) start) (fun t => t.gr[2] == 0x00007FFE) = true ∧
    raises (exec (.ldh 2 1 1) start) (.misaligned 0x11 2) = true := by decide

theorem test_ldhu :
    runsTo (exec (.ldhu 2 0 1) start) (fun t => t.gr[2] == 0x00008001) = true ∧
    runsTo (exec (.ldhu 2 4 1) start) (fun t => t.gr[2] == 0x0000FF00) = true := by decide

theorem test_ldb :
    runsTo (exec (.ldb 2 0 1) start) (fun t => t.gr[2] == 0xFFFFFF80) = true ∧
    runsTo (exec (.ldb 2 2 1) start) (fun t => t.gr[2] == 0x0000007F) = true ∧
    raises (exec (.ldb 2 (-16) 1) start) (.unwrittenRead (.dmem 0)) = true := by decide

theorem test_ldbu :
    runsTo (exec (.ldbu 2 0 1) start) (fun t => t.gr[2] == 0x00000080) = true ∧
    runsTo (exec (.ldbu 2 3 1) start) (fun t => t.gr[2] == 0x000000FE) = true ∧
    raises (exec (.ldbu 2 0xEF 1) start) (.unwrittenRead (.dmem 0xFF)) = true ∧
    raises (exec (.ldbu 2 0xF0 1) start) (.dmemRange 0x100 1) = true := by decide

theorem test_stw :
    runsTo (exec (.stw 16 1 9) start)
      (fun t => [(0x1F, none), (0x20, some 0xA1), (0x21, some 0xB2), (0x22, some 0xC3), (0x23, some 0xD4), (0x24, none)].all (fun p => t.byteAt p.1 == p.2)) = true ∧
    raises (exec (.stw 0xF0 1 9) start) (.dmemRange 0x100 4) = true := by decide

theorem test_sth :
    runsTo (exec (.sth 16 1 9) start)
      (fun t => [(0x1F, none), (0x20, some 0xC3), (0x21, some 0xD4), (0x22, none)].all (fun p => t.byteAt p.1 == p.2)) = true ∧
    raises (exec (.sth 17 1 9) start) (.misaligned 0x21 2) = true := by decide

theorem test_stb :
    runsTo (exec (.stb 19 1 9) start)
      (fun t => [(0x22, none), (0x23, some 0xD4), (0x24, none)].all (fun p => t.byteAt p.1 == p.2)) = true ∧
    runsTo (exec (.stb 0 1 0) start)
      (fun t => [(0x10, some 0x00), (0x11, some 0x01)].all (fun p => t.byteAt p.1 == p.2)) = true := by decide

theorem test_pft :
    runsTo (exec (.pft 1 1) start) (fun t => t == { start with pc := 11 }) = true ∧
    raises (exec (.pft 0 8) start) (.unwrittenRead (.gr 8)) = true := by decide

theorem test_goto :
    runsTo (exec (.goto 5) start) (fun t => t.pc == 15) = true ∧
    runsTo (exec (.goto (-11)) start) (fun t => t.pc == -1) = true := by decide

theorem test_call :
    runsTo (exec (.call 5) start) (fun t => t.pc == 15 && t.gr[63] == 11) = true := by decide

theorem test_igoto :
    runsTo (exec (.igoto) start) (fun t => t.pc == 40 && t.gr[63] == 40) = true ∧
    runsTo (exec .igoto { start with gr := start.gr.set 63 0x80000000 }) (fun t => t.pc == 2147483648) = true := by decide

theorem test_icall :
    runsTo (exec (.icall) start) (fun t => t.pc == 40 && t.gr[63] == 11) = true := by decide

theorem test_br :
    runsTo (exec (.br 3 (-4)) start) (fun t => t.pc == 6) = true ∧
    runsTo (exec (.br 4 (-4)) start) (fun t => t.pc == 11) = true := by decide

theorem test_brf :
    runsTo (exec (.brf 3 (-4)) start) (fun t => t.pc == 11) = true ∧
    runsTo (exec (.brf 4 (-4)) start) (fun t => t.pc == 6) = true := by decide

theorem test_ret :
    runsTo (exec (.ret 1 (-32)) start) (fun t => t.pc == 40 && t.gr[1] == 0xFFFFFFF0) = true ∧
    runsTo (exec (.ret 63 8) start) (fun t => t.pc == 40 && t.gr[63] == 0x30) = true := by decide

theorem test_xnop :
    runsTo (exec (.xnop (some 3)) start) (fun t => t.pc == 11) = true ∧
    runsTo (exec (.xnop none) start) (fun t => t.pc == 11) = true := by decide

theorem test_nop_and_stop :
    runsTo (exec .nop start) (fun t => t == { start with pc := 11 }) = true ∧
    runsTo (exec .stop start) (fun t => t == { start with pc := 11, halted := true }) = true := by decide

theorem test_unsupported :
    raises (exec (.rfi) start) (.unsupported .rfi) = true ∧
    raises (exec (.send (some (5, 3))) start) (.unsupported .send) = true ∧
    raises (exec (.recv none) start) (.unsupported .recv) = true := by decide

/-- A reserved code alone in slot 0, and a SYL_FOLLOW alone in slot 0. -/
theorem test_reserved :
    ([
      (.reserved0001100, 0b0001100#7), (.reserved0001101, 0b0001101#7), (.reserved0001110, 0b0001110#7),
      (.reserved0001111, 0b0001111#7), (.reserved0010000, 0b0010000#7), (.reserved0011010, 0b0011010#7),
      (.reserved0011011, 0b0011011#7), (.reserved0011101, 0b0011101#7), (.reserved0011110, 0b0011110#7),
      (.reserved0100000, 0b0100000#7), (.reserved0101100, 0b0101100#7), (.reserved0101101, 0b0101101#7),
      (.reserved0101110, 0b0101110#7), (.reserved0101111, 0b0101111#7), (.reserved1000000, 0b1000000#7),
      (.reserved1000010, 0b1000010#7), (.reserved1100101, 0b1100101#7), (.reserved1101001, 0b1101001#7),
      (.reserved1101010, 0b1101010#7), (.reserved1101011, 0b1101011#7), (.reserved1101100, 0b1101100#7),
      (.reserved1101101, 0b1101101#7), (.reserved1101110, 0b1101110#7), (.reserved1101111, 0b1101111#7)] : List (Instr × BitVec 7)).all
      (fun p => raises (exec p.1 start) (.illegalOpcode 0 p.2)) = true ∧
    raises (exec (.sylFollow 5) start) (.orphanFollow 0) = true := by decide

/-! ### Bundles and faults (sections 2.8 and 2.9), the step of the first bundle -/

/-- S1: two moves swap their registers. -/
theorem test_bundle_swap :
    runsTo (step (program #v[0xB0021001, 0xB0040800, 0x00000000, 0x00000002] [(1, 1), (2, 2)] []))
      (fun t => t.gr[1] == 2 && t.gr[2] == 1 && t.pc == 1) = true := by decide

/-- S2: the branch sees the BR of before the bundle. -/
theorem test_bundle_branch_sees_old :
    runsTo (step (program #v[0xB2000001, 0x4B000040, 0x00000000, 0x00000002] [] [(0, false)]))
      (fun t => t.br[0] == true && t.pc == 1) = true := by decide

/-- S3: the store uses the old register for address and data. -/
theorem test_bundle_store_sees_old :
    runsTo (step (program #v[0x82820811, 0x2C820800, 0x00000000, 0x00000002] [(1, 16)] []))
      (fun t => t.gr[1] == 0x14 && t.byteAt 0x13 == some 0x10 && t.byteAt 0x14 == none) = true := by decide

/-- S4: the move reads the old link register. -/
theorem test_bundle_call_and_move :
    runsTo (step (program #v[0x47000021, 0xB00BF800, 0x00000000, 0x00000002] [(63, 0x77)] []))
      (fun t => t.gr[5] == 0x77 && t.gr[63] == 1 && t.pc == 1) = true := by decide

/-- S5: both commit. -/
theorem test_bundle_goto_and_stop :
    runsTo (step (program #v[0x430000A1, 0x3E000000, 0x00000000, 0x00000002] [] []))
      (fun t => t.halted && t.pc == 5) = true := by decide

/-- S7, second bundle: two long immediates. -/
theorem test_bundle_two_long :
    runsTo (step (program #v[0x83880801, 0x39FFFFFC, 0x838A0000, 0x39000002] [(1, 1)] []))
      (fun t => t.gr[4] == 0xFFFFFE01 && t.gr[5] == 0x80000000) = true := by decide

/-- S16: two writes to `$r0.0` are no conflict. -/
theorem test_bundle_zero_no_conflict :
    runsTo (step (program #v[0x82800005, 0x82800008, 0x00000000, 0x00000002] [] []))
      (fun t => t.gr[0] == 0 && t.pc == 1) = true := by decide

/-- F7 to F10c: decode faults. -/
theorem test_decode_faults :
    raises (step (program #v[0x80000001, 0x00000000, 0x00000000, 0x00000002] [] [])) (.illegalOpcode 0 0b1000000#7) = true ∧
    raises (step (program #v[0x00000001, 0x18000000, 0x00000000, 0x00000002] [] [])) (.illegalOpcode 1 0b0001100#7) = true ∧
    raises (step (program #v[0x38000001, 0x00000000, 0x00000000, 0x00000002] [] [])) (.orphanFollow 0) = true ∧
    raises (step (program #v[0x00000001, 0x00000000, 0x00000000, 0x83860802] [] [])) (.badLongImm 3) = true ∧
    raises (step (program #v[0x83860801, 0x00000000, 0x00000000, 0x00000002] [] [])) (.badLongImm 0) = true ∧
    raises (step (program #v[0xB08E4001, 0x00000000, 0x00000000, 0x00000002] [] [])) (.badForm 0 0b1011000#7 0b01#2) = true ∧
    raises (step (program #v[0x83060841, 0x00000000, 0x00000000, 0x00000002] [] [])) (.badForm 0 0b1000001#7 0b10#2) = true ∧
    raises (step (program #v[0x220A0801, 0x00000000, 0x00000000, 0x00000002] [] [])) (.badForm 0 0b0010001#7 0b00#2) = true := by decide

/-- F11 to F13c: the bundle check. -/
theorem test_bundle_faults :
    raises (step (program #v[0x43000021, 0x43000040, 0x00000000, 0x00000002] [] [])) (.badBundle .twoBranches) = true ∧
    raises (step (program #v[0x22840001, 0x2C800010, 0x00000000, 0x00000002] [] [])) (.badBundle .twoMemOps) = true ∧
    raises (step (program #v[0x82820005, 0x82820008, 0x00000000, 0x00000002] [] [])) (.badBundle .writeConflict) = true ∧
    raises (step (program #v[0x47000021, 0x82FE0008, 0x00000000, 0x00000002] [] [])) (.badBundle .writeConflict) = true ∧
    raises (step (program #v[0xB2000009, 0xCE000008, 0x00000000, 0x00000002] [] [])) (.badBundle .writeConflict) = true := by decide

/-- F1 to F6: evaluation faults. -/
theorem test_evaluation_faults :
    raises (step (program #v[0x22840009, 0x00000000, 0x00000000, 0x00000002] [] [])) (.misaligned 2 4) = true ∧
    raises (step (program #v[0x22840801, 0x00000000, 0x00000000, 0x00000002] [(1, 0x100)] [])) (.dmemRange 0x100 4) = true ∧
    raises (step (program #v[0x24840801, 0x00000000, 0x00000000, 0x00000002] [(1, 0x1FF)] [])) (.misaligned 0x1FF 2) = true ∧
    raises (step (program #v[0x22840021, 0x00000000, 0x00000000, 0x00000002] [] [])) (.unwrittenRead (.dmem 8)) = true ∧
    raises (step (program #v[0x82042801, 0x00000000, 0x00000000, 0x00000002] [] [])) (.unwrittenRead (.gr 5)) = true ∧
    raises (step (program #v[0x4B000025, 0x00000000, 0x00000000, 0x00000002] [] [])) (.unwrittenRead (.br 1)) = true := by decide

/-- F17 to F20: the order of the phases and of the slots. -/
theorem test_fault_priority :
    raises (step (program #v[0x82042801, 0x00000000, 0x00000000, 0x80000002] [] [])) (.illegalOpcode 3 0b1000000#7) = true ∧
    raises (step (program #v[0x82042801, 0x83060840, 0x00000000, 0x00000002] [] [])) (.badForm 1 0b1000001#7 0b10#2) = true ∧
    raises (step (program #v[0x82042801, 0x82042808, 0x00000000, 0x00000002] [] [])) (.badBundle .writeConflict) = true ∧
    raises (step (program #v[0x82042801, 0x22860008, 0x00000000, 0x00000002] [] [])) (.unwrittenRead (.gr 5)) = true := by decide

/-- P5, second bundle: the fault of slot 1 cancels the ADD of slot 0. -/
theorem test_fault_cancels :
    nextThat (step (program #v[0x82840805, 0x22860800, 0, 2] [(1, 7)] []))
      (fun t => t.fault == some (.misaligned 7 4) && t.grWritten[2] == false && t.pc == 0) = true := by decide

/-- F15 and F16: a pc outside instruction memory. -/
theorem test_imem_range :
    raises (step { program (alone 0) [] [] with pc := -1 }) (.imemRange (-1)) = true ∧
    raises (step { program (alone 0) [] [] with pc := 1 }) (.imemRange 1) = true := by decide

/-! ### Witnesses: for each statement with hypotheses, a state and operands that meet them together

`start` has GR 1, GR 9 and GR 63, BR 3 and BR 4 written, and 256 bytes of data memory; `two a b` has GR 1 and GR 2. -/

/-- GR 1 and GR 2 of `two a b` may be read. -/
theorem ready_two (a b : Word) : Readable (two a b) [1, 2] [] := by
  constructor
  · intro i hi h0
    rcases List.mem_cons.1 hi with rfl | hi
    · rfl
    · rcases List.mem_cons.1 hi with rfl | hi
      · rfl
      · cases hi
  · intro i hi
    cases hi

theorem ready_two_and (a b : Word) (c : Bool) : Readable (twoAnd a b c) [1, 2] [4] := by
  constructor
  · intro i hi h0
    rcases List.mem_cons.1 hi with rfl | hi
    · rfl
    · rcases List.mem_cons.1 hi with rfl | hi
      · rfl
      · cases hi
  · intro i hi
    rcases List.mem_cons.1 hi with rfl | hi
    · rfl
    · cases hi

/-- `$r0.0` may be read although nothing has written it. -/
theorem ready_zero : Readable State.bareReset [0] [] := by unfold Readable; decide

theorem unread_gr : FirstUnread start [7, 1, 5] [0] (.gr 5) := by unfold FirstUnread; decide

theorem unread_br : FirstUnread start [0, 1] [6, 3, 2] (.br 2) := by unfold FirstUnread; decide

/-- Nothing follows a long immediate, or a NOP does. -/
theorem no_follow :
    (∀ f ∈ ([] : List Syllable).head?, opcodeBits f ≠ followCode) ∧
    ∀ f ∈ ([0] : List Syllable).head?, opcodeBits f ≠ followCode := ⟨by simp, by simp; decide⟩

theorem witness_AddAndLogicRules :
    Readable (two 1 2) (1 :: named (.reg 2)) [] ∧ Readable State.bareReset (0 :: named (.imm 7)) [] ∧
    FirstUnread start (5 :: named (.reg 1)) [] (.gr 5) ∧ FirstUnread start (5 :: named (.reg 4)) [] (.gr 4) ∧
    ∀ f ∈ ([0] : List Syllable).head?, opcodeBits f ≠ followCode :=
  ⟨ready_two 1 2, ready_zero, by unfold FirstUnread; decide, by unfold FirstUnread; decide, no_follow.2⟩

theorem witness_ComplementAndShiftAddRules :
    Readable (two 1 2) (1 :: named (.reg 2)) [] ∧ FirstUnread start (5 :: named (.imm 1)) [] (.gr 5) ∧
    ∀ f ∈ ([] : List Syllable).head?, opcodeBits f ≠ followCode :=
  ⟨ready_two 1 2, by unfold FirstUnread; decide, no_follow.1⟩

theorem witness_AluMaximumAndMinimumRules :
    Readable (two 0xFFFFFFFF 1) (1 :: named (.reg 2)) [] ∧ FirstUnread start (0 :: named (.reg 4)) [] (.gr 4) :=
  ⟨ready_two 0xFFFFFFFF 1, by unfold FirstUnread; decide⟩

theorem witness_ShiftsWithinTheWidth :
    (Readable (two 5 31) (1 :: named (.reg 2)) [] ∧ (sval (two 5 31) (.reg 2)).toNat ≤ 31) ∧
    Readable (two 5 0) (1 :: named (.imm 0)) [] ∧ (sval (two 5 0) (.imm 0)).toNat ≤ 31 :=
  ⟨⟨ready_two 5 31, by decide⟩, by unfold Readable; decide, by decide⟩

theorem witness_ShiftsBeyondTheWidthDrawAValue :
    (Readable (two 5 32) (1 :: named (.reg 2)) [] ∧ 31 < (sval (two 5 32) (.reg 2)).toNat) ∧
    Readable (two 5 0) (1 :: named (.imm (-1))) [] ∧ 31 < (sval (two 5 0) (.imm (-1))).toNat :=
  ⟨⟨ready_two 5 32, by decide⟩, by unfold Readable; decide, by decide⟩

theorem witness_ShiftReadsAndEncodings : FirstUnread start (5 :: named (.reg 1)) [] (.gr 5) := by
  unfold FirstUnread; decide

theorem witness_SubtractRule :
    Readable (two 1 2) (1 :: named (.reg 2)) [] ∧ FirstUnread start (1 :: named (.reg 2)) [] (.gr 2) :=
  ⟨ready_two 1 2, by unfold FirstUnread; decide⟩

theorem witness_ExtensionAndMoveRules :
    Readable (two 0x80 0) [1] [] ∧ Readable State.bareReset [0] [] ∧ FirstUnread start [8] [] (.gr 8) :=
  ⟨by unfold Readable; decide, ready_zero, by unfold FirstUnread; decide⟩

theorem witness_CompareEqualAndGreaterRules :
    Readable (two 1 2) (1 :: named (.reg 2)) [] ∧ FirstUnread start (1 :: named (.reg 2)) [] (.gr 2) :=
  ⟨ready_two 1 2, by unfold FirstUnread; decide⟩

theorem witness_CompareLessAndUnequalRules :
    Readable (two 2 1) (1 :: named (.reg 2)) [] ∧ FirstUnread start (8 :: named (.imm 2)) [] (.gr 8) :=
  ⟨ready_two 2 1, by unfold FirstUnread; decide⟩

theorem witness_LogicalTruthRules :
    Readable (two 0 7) (1 :: named (.reg 2)) [] ∧ FirstUnread start (8 :: named (.reg 0)) [] (.gr 8) :=
  ⟨ready_two 0 7, by unfold FirstUnread; decide⟩

theorem witness_MoveToBranchRegisterRule : Readable start [1] [] ∧ FirstUnread start [62] [] (.gr 62) :=
  ⟨by unfold Readable; decide, by unfold FirstUnread; decide⟩

theorem witness_AddWithCarryRule :
    Readable (twoAnd 1 2 true) [1, 2] [4] ∧ FirstUnread start [1, 1] [0] (.br 0) ∧ FirstUnread start [1, 2] [0] (.gr 2) :=
  ⟨ready_two_and 1 2 true, by unfold FirstUnread; decide, by unfold FirstUnread; decide⟩

theorem witness_DivisionStepRule :
    Readable (twoAnd 0x80000000 3 false) [1, 2] [4] ∧ FirstUnread start [1, 9] [7] (.br 7) :=
  ⟨ready_two_and 0x80000000 3 false, by unfold FirstUnread; decide⟩

theorem witness_SelectRules :
    Readable (twoAnd 1 2 true) (1 :: named (.reg 2)) [4] ∧ FirstUnread start (1 :: named (.imm 0)) [7] (.br 7) :=
  ⟨ready_two_and 1 2 true, by unfold FirstUnread; decide⟩

theorem witness_NoArithmeticConditionFaults :
    isArithmetic (.divs 3 5 4 1 2) = true ∧
    Readable (twoAnd 1 0 false) (access (.divs 3 5 4 1 2)).grReads (access (.divs 3 5 4 1 2)).brReads :=
  ⟨rfl, ready_two_and 1 0 false⟩

theorem witness_HalfByHalfProductRules :
    Readable (two 1 2) (1 :: named (.reg 2)) [] ∧ FirstUnread start (1 :: named (.reg 2)) [] (.gr 2) :=
  ⟨ready_two 1 2, by unfold FirstUnread; decide⟩

theorem witness_WordByHalfProductRules :
    Readable (two 1 2) (1 :: named (.reg 2)) [] ∧ FirstUnread start (8 :: named (.imm 2)) [] (.gr 8) :=
  ⟨ready_two 1 2, by unfold FirstUnread; decide⟩

theorem witness_HalfByHalfProductsAreExact :
    (63 : GR) ≠ 0 ∧ Readable (two 0x80008000 0x80008000) (1 :: named (.reg 2)) [] :=
  ⟨by decide, ready_two 0x80008000 0x80008000⟩

theorem witness_MpyluPlusMpyhsIsTheFullProduct :
    (5 : GR) ≠ 0 ∧ (6 : GR) ≠ 0 ∧ Readable (two 100 (-7)) (1 :: named (.reg 2)) [] :=
  ⟨by decide, by decide, ready_two 100 (-7)⟩

theorem witness_IndirectJumpAndCallRules :
    Readable start [63] [] ∧ FirstUnread State.bareReset [63] [] (.gr 63) :=
  ⟨by unfold Readable; decide, by unfold FirstUnread; decide⟩

theorem witness_ConditionalBranchRules :
    (Readable start [] [3] ∧ start.br[3] = true) ∧ (Readable start [] [4] ∧ start.br[4] = false) ∧
    FirstUnread start [] [0] (.br 0) :=
  ⟨⟨by unfold Readable; decide, by decide⟩, ⟨by unfold Readable; decide, by decide⟩, by unfold FirstUnread; decide⟩

theorem witness_ReturnRule :
    Readable start [1, 63] [] ∧ Readable start [63, 63] [] ∧ Readable start [0, 63] [] ∧
    FirstUnread (two 1 2) [1, 63] [] (.gr 63) ∧ FirstUnread start [62, 63] [] (.gr 62) :=
  ⟨by unfold Readable; decide, by unfold Readable; decide, by unfold Readable; decide, by unfold FirstUnread; decide,
    by unfold FirstUnread; decide⟩

/-- A load or store that succeeds at the last word, and the first addresses of each fault. -/
theorem witness_LoadRules :
    (Readable start [1] [] ∧ (addr start 1 4).toNat % 4 = 0 ∧ Inside start (addr start 1 4) 4 ∧
      ([0xFF, 0x00, 0x12, 0x34] : List Byte).length = 4 ∧
      ∀ k, k < 4 → start.byteAt ((addr start 1 4).toNat + k) = ([0xFF, 0x00, 0x12, 0x34] : List Byte)[k]?) ∧
    FirstUnread start [2] [] (.gr 2) ∧
    (addr start 1 1).toNat % 2 ≠ 0 ∧
    ((addr start 1 0xF0).toNat % 4 = 0 ∧ ¬ Inside start (addr start 1 0xF0) 4) ∧
    (addr start 1 0xEC).toNat % 4 = 0 ∧ Inside start (addr start 1 0xEC) 4 ∧
    start.byteAt ((addr start 1 0xEC).toNat + 3) = none :=
  ⟨by unfold Readable Inside; decide, by unfold FirstUnread; decide, by decide, by unfold Inside; decide, by decide,
    by unfold Inside; decide, by decide⟩

theorem witness_StoreRules :
    (Readable start [1, 9] [] ∧ (addr start 1 0xEC).toNat % 4 = 0 ∧ Inside start (addr start 1 0xEC) 4) ∧
    (Readable start [1, 0] [] ∧ (addr start 1 0xEF).toNat % 1 = 0 ∧ Inside start (addr start 1 0xEF) 1) ∧
    FirstUnread start [1, 2] [] (.gr 2) ∧
    (addr start 1 2).toNat % 4 ≠ 0 ∧
    (addr start 1 0xF0).toNat % 2 = 0 ∧ ¬ Inside start (addr start 1 0xF0) 2 :=
  ⟨by unfold Readable Inside; decide, by unfold Readable Inside; decide, by unfold FirstUnread; decide, by decide,
    by decide, by unfold Inside; decide⟩

theorem witness_PrefetchRule : Readable start [1] [] ∧ FirstUnread start [8] [] (.gr 8) := by
  unfold Readable FirstUnread; decide

theorem witness_LoadReturnsTheLatestStoreBigEndian :
    Readable start [1, 9] [] ∧ (addr start 1 0xEC).toNat % 4 = 0 ∧ Inside start (addr start 1 0xEC) 4 := by
  unfold Readable Inside; decide

/-- The machine before the bundle of S1, which swaps two registers. -/
def swapState : State := program #v[0xB0021001, 0xB0040800, 0, 2] [(1, 1), (2, 2)] []

theorem fetches_swap : Fetches swapState #v[0xB0021001, 0xB0040800, 0, 2] := by unfold Fetches; decide

/-- The machine before a bundle of STOP and NOPs. -/
def stopState : State := program (alone 0x3E000001) [] []

theorem witness_StopRule :
    ∃ t, Fetches stopState (alone 0x3E000001) ∧ decodeBundle (alone 0x3E000001) = .ok [.stop, .nop, .nop, .nop] ∧
      step stopState = .next t ∧ (t.fault == none && t.halted) = true := by
  obtain ⟨t, h, ht⟩ := of_nextThat (r := step stopState) (p := fun t => t.fault == none && t.halted) (by decide)
  exact ⟨t, by unfold Fetches; decide, by rfl, h, ht⟩

theorem witness_LongImmediatePairing :
    opcodeBits 0x38000001 = followCode ∧
    (takesSource (opcodeBits 0x83860801) = true ∧ switchBits 0x83860801 = 0b11 ∧
      (∀ f ∈ ([0] : List Syllable).head?, opcodeBits f ≠ followCode) ∧
      ∀ f ∈ ([] : List Syllable).head?, opcodeBits f ≠ followCode) ∧
    takesOffset (opcodeBits 0x238A0000) = true ∧ switchBits 0x238A0000 = 0b11 ∧ opcodeBits 0x38000020 = followCode :=
  ⟨by decide +kernel, ⟨by decide +kernel, by decide +kernel, by simp; decide, by simp⟩, by decide +kernel,
    by decide +kernel, by decide +kernel⟩

theorem witness_ReservedCodesAreIllegal :
    opcodeBits 0x80000001 ∈ reservedCodes ∧ opcodeBits 0x3C000000 ∈ reservedCodes ∧
    opcodeBits 0x82060840 ∉ reservedCodes ∧ opcodeBits 0x38000001 ∉ reservedCodes := by decide

theorem witness_ReservedOperationsRaiseIllegalOpcode :
    (0b1000000#7, .reserved1000000) ∈ reservedCodes.zip reservedOperations ∧
    (0b0011110#7, .reserved0011110) ∈ reservedCodes.zip reservedOperations ∧
    (reservedCodes.zip reservedOperations).length = 24 := by decide

theorem witness_SwitchNotAdmittedIsBadForm :
    (opcodeBits 0xB08E4001 ∉ reservedCodes ∧ opcodeBits 0xB08E4001 ≠ followCode ∧
      switchBits 0xB08E4001 ∉ admitted (opcodeBits 0xB08E4001)) ∧
    switchBits 0x82060840 ∈ admitted (opcodeBits 0x82060840) ∧ switchBits 0x3E000000 ∈ admitted (opcodeBits 0x3E000000) :=
  by decide

theorem witness_FirstAndLastMarks :
    (∀ k : Fin 4, (#v[0x82060840, 0, 0, 0] : Bundle)[k] >>> 2 = (#v[0x82060843, 3, 1, 2] : Bundle)[k] >>> 2) ∧
    assemble [.mov 1 2, .mov 2 1] = some #v[0xB0021001, 0xB0040800, 0x00000000, 0x00000002] := by decide

theorem witness_DecodeOfEncodeIsTheOperation :
    ([.add 3 1 (.imm 256), .cmpeq (.br 0) 1 (.reg 2), .ret 1 (-2048), .xnop (some 4095), .reserved1000000] :
      List Instr).all Instr.wellFormed = true := by decide

theorem witness_DecodedOperationsAreWellFormed :
    decodeSyllable 0x4F03FC00 [] = .ok (.ret 1 (-32), false) ∧
    decodeSyllable 0x53000060 [] = .ok (.xnop (some 3), false) := ⟨rfl, rfl⟩

theorem witness_FetchRule :
    { start with halted := true }.halted = true ∧ { start with fault := some (.orphanFollow 0) }.fault ≠ none ∧
    (start.halted = false ∧ start.fault = none ∧ (start.imem.length : Int) ≤ start.pc) ∧
    { start with pc := -1 }.pc < 0 ∧ 0 ≤ swapState.pc ∧ swapState.pc < (swapState.imem.length : Int) := by decide

theorem witness_StepRunsTheDecodedOperation :
    Fetches (program (alone 0x82820029) [] []) (alone 0x82820029) ∧
    decodeBundle (alone 0x82820029) = .ok (.add 1 0 (.imm 10) :: [.nop, .nop, .nop]) ∧
    ∀ j ∈ ([.nop, .nop, .nop] : List Instr), j = .nop :=
  ⟨by unfold Fetches; decide, by rfl, by decide⟩

theorem witness_BundleCheckRule :
    start.fault = none ∧ 1 < [Instr.goto 1, .goto 2].countP isControl ∧
    ([Instr.goto 1, .ldw 1 0 0, .stb 0 0 0].countP isControl ≤ 1 ∧
      1 < [Instr.goto 1, .ldw 1 0 0, .stb 0 0 0].countP isMemory) ∧
    ([Instr.call 1, .ldw 63 0 0].countP isControl ≤ 1 ∧ [Instr.call 1, .ldw 63 0 0].countP isMemory ≤ 1 ∧
      WritesConflict [.call 1, .ldw 63 0 0]) ∧
    ¬ WritesConflict [.add 0 0 (.imm 1), .add 0 0 (.imm 2)] := by
  refine ⟨rfl, by decide, by decide, ⟨by decide, by decide, 0, 1, _, _, by decide, rfl, rfl, Or.inl ⟨63, ?_⟩⟩, ?_⟩
  · decide
  · rintro ⟨p, q, i, j, hpq, hp, hq, h⟩
    have hi := List.mem_of_getElem? hp
    have hj := List.mem_of_getElem? hq
    simp at hi hj
    rcases hi with rfl | rfl <;> rcases hj with rfl | rfl <;> simp [access] at h

theorem witness_BundleReadsAllThenWritesAll :
    Fetches swapState #v[0xB0021001, 0xB0040800, 0, 2] ∧
    decodeBundle #v[0xB0021001, 0xB0040800, 0, 2] = .ok [.mov 1 2, .mov 2 1, .nop, .nop] ∧
    [Instr.mov 1 2, .mov 2 1, .nop, .nop].countP isControl ≤ 1 ∧
    [Instr.mov 1 2, .mov 2 1, .nop, .nop].countP isMemory ≤ 1 ∧
    ¬ WritesConflict [.mov 1 2, .mov 2 1, .nop, .nop] ∧
    ∀ i ∈ [Instr.mov 1 2, .mov 2 1, .nop, .nop], ∃ u, exec i swapState = .next u ∧ (u.fault == none) = true := by
  refine ⟨fetches_swap, rfl, by decide, by decide, ?_, ?_⟩
  · rintro ⟨p, q, i, j, hpq, hp, hq, h⟩
    match p, q, hpq, hp, hq with
    | 0, 1, _, hp, hq => simp at hp hq; subst hp hq; simp [access] at h
    | 0, q + 2, _, hp, hq =>
      have hj := List.mem_of_getElem? hq
      simp at hp hq; subst hp
      match q, hq with
      | 0, hq => simp at hq; subst hq; simp [access] at h
      | 1, hq => simp at hq; subst hq; simp [access] at h
    | 1, q + 2, _, hp, hq =>
      simp at hp hq; subst hp
      match q, hq with
      | 0, hq => simp at hq; subst hq; simp [access] at h
      | 1, hq => simp at hq; subst hq; simp [access] at h
    | 2, q + 3, _, hp, hq => simp at hp; subst hp; simp [access] at h
    | 3, q + 4, _, hp, hq => simp at hp; subst hp; simp [access] at h
  · intro i hi
    simp at hi
    rcases hi with rfl | rfl | rfl
    · exact of_nextThat (p := fun u => u.fault == none) (by decide)
    · exact of_nextThat (p := fun u => u.fault == none) (by decide)
    · exact of_nextThat (p := fun u => u.fault == none) (by decide)

/-- F5: the ADD reads a register nothing has written. -/
def faultState : State := program (alone 0x82042801) [] []

theorem witness_FaultIsPreciseAndEndsTheRun :
    ∃ t, step faultState = .next t ∧ (t.fault == some (.unwrittenRead (.gr 5))) = true :=
  of_nextThat (p := fun t => t.fault == some (.unwrittenRead (.gr 5))) (by decide)

/-- F17, F19 and F20, and a syllable that hands over to the next. -/
theorem witness_FaultPriority :
    (Fetches (program #v[0x82042801, 0, 0, 0x80000002] [] []) #v[0x82042801, 0, 0, 0x80000002] ∧
      decodeBundle #v[0x82042801, 0, 0, 0x80000002] = .error (.illegalOpcode 3 0b1000000)) ∧
    (Fetches (program #v[0x82042801, 0x82042808, 0, 2] [] []) #v[0x82042801, 0x82042808, 0, 2] ∧
      decodeBundle #v[0x82042801, 0x82042808, 0, 2] = .ok [.add 2 5 (.reg 0), .add 2 5 (.reg 0), .nop, .nop] ∧
      bundleReason [.add 2 5 (.reg 0), .add 2 5 (.reg 0), .nop, .nop] = some .writeConflict) ∧
    (Fetches faultState (alone 0x82042801) ∧
      decodeBundle (alone 0x82042801) = .ok ([] ++ .add 2 5 (.reg 0) :: [.nop, .nop, .nop]) ∧
      bundleReason ([] ++ .add 2 5 (.reg 0) :: [.nop, .nop, .nop]) = none ∧
      raises (exec (.add 2 5 (.reg 0)) faultState) (.unwrittenRead (.gr 5)) = true) ∧
    opcodeBits 0x82042801 ∉ reservedCodes ∧ opcodeBits 0x82042801 ≠ followCode ∧
    decodeSyllable 0x82042801 [0, 0, 2] = .ok (.add 2 5 (.reg 0), false) :=
  ⟨⟨by unfold Fetches; decide, rfl⟩, ⟨by unfold Fetches; decide, rfl, by decide⟩,
    ⟨by unfold Fetches; decide, rfl, by decide, by decide⟩, by decide, by decide, rfl⟩

theorem witness_UnwrittenReadRule :
    FirstUnread start (access (.ret 62 0)).grReads (access (.ret 62 0)).brReads (.gr 62) ∧
    FirstUnread start (access (.slct 3 0 1 (.imm 1))).grReads (access (.slct 3 0 1 (.imm 1))).brReads (.br 0) ∧
    (Readable start [1] [] ∧ (addr start 1 8).toNat % 4 = 0 ∧ Inside start (addr start 1 8) 4 ∧
      start.byteAt ((addr start 1 8).toNat + 0) = none) ∧
    (addr start 1 0xEF).toNat % 1 = 0 ∧ Inside start (addr start 1 0xEF) 1 ∧
    start.byteAt ((addr start 1 0xEF).toNat + 0) = none :=
  ⟨by unfold FirstUnread; decide, by unfold FirstUnread; decide, by unfold Readable Inside; decide, by decide,
    by unfold Inside; decide, by decide⟩

theorem witness_RegisterZeroIsHardwired : (1 : GR) ≠ 0 ∧ (63 : GR) ≠ 0 := by decide

theorem witness_OperationsChangeOnlyWhatTheirRowWrites :
    ∃ t, exec (.call 5) start = .next t ∧ (t.gr[63] != start.gr[63]) = true :=
  of_nextThat (p := fun t => t.gr[63] != start.gr[63]) (by decide)

theorem witness_OnlyTheseOperationsWriteOrReadBranchRegisters :
    (∃ t, exec (.mtb 4 1) start = .next t ∧ (t.br[4] != start.br[4] && t.fault == none) = true) ∧
    WritesBr (.mtb 4 1) 4 ∧ ¬ ReadsBr (.mtb 4 1) 4 ∧ ¬ ReadsBr (.slct 2 3 1 (.imm 0)) 4 ∧
    ∃ t, exec (.slct 2 3 1 (.imm 0)) start = .next t ∧ (t.fault == none && t.draws == start.draws) = true := by
  refine ⟨of_nextThat (p := fun t => t.br[4] != start.br[4] && t.fault == none) (by decide), .inr (.inl ⟨1, rfl⟩),
    ?_, ?_, of_nextThat (p := fun t => t.fault == none && t.draws == start.draws) (by decide)⟩
  · simp [ReadsBr]
  · simp [ReadsBr]

theorem witness_NoOperationReadsAndWritesMemory :
    ∃ u, exec (.stb 20 1 9) start = .next u ∧ (u.dmem != start.dmem) = true :=
  of_nextThat (p := fun u => u.dmem != start.dmem) (by decide)

theorem witness_OpcodeMapRule :
    decodeSyllable 0x838609E0 [0x382468AC] = .ok (.add 3 1 (.imm 0x12345678), true) ∧
    encode (.add 3 1 (.imm 0x12345678)) = some [0x838609E0, 0x382468AC] ∧
    encode (.slct 4 3 1 (.reg 2)) = some [0x76080840] ∧
    (Instr.slctf 0 7 0 (.imm 0)).ctorIdx < (Instr.slct 0 0 0 (.imm 0)).ctorIdx ∧
    (Instr.ret 1 8).ctorIdx = (Instr.ret 2 0).ctorIdx ∧ family (.ret 1 8) = .ctrl := by decide

theorem witness_NoOperationRules :
    opcodeBits 0x52000000 = 0b0101001#7 ∧ switchBits 0x52000000 ≠ 0b10#2 ∧
    opcodeBits 0x53800000 = 0b0101001#7 ∧ switchBits 0x53800000 = 0b11#2 := by decide

/-- Two states that differ in GR 9 and BR 4, and agree on what ADD of GR 1 reads. -/
theorem witness_OperationsSeeOnlyWhatTheirRowReads :
    start.fault = none ∧ ((start.writeGr 9 1).writeBr 4 true).fault = none ∧
    start.pc = ((start.writeGr 9 1).writeBr 4 true).pc ∧ start.dmem = ((start.writeGr 9 1).writeBr 4 true).dmem ∧
    start.halted = ((start.writeGr 9 1).writeBr 4 true).halted ∧
    (∀ k ∈ (access (.add 2 1 (.imm 1))).grReads, start.gr[k] = ((start.writeGr 9 1).writeBr 4 true).gr[k] ∧
      start.grWritten[k] = ((start.writeGr 9 1).writeBr 4 true).grWritten[k]) ∧
    (∀ k ∈ (access (.add 2 1 (.imm 1))).brReads, start.br[k] = ((start.writeGr 9 1).writeBr 4 true).br[k]) ∧
    (∃ u, exec (.add 2 1 (.imm 1)) start = .next u ∧ (u.fault == none) = true) ∧
    start.gr[9] ≠ ((start.writeGr 9 1).writeBr 4 true).gr[9] :=
  ⟨by decide, by decide, by decide, by decide, by decide, by decide, by decide,
    of_nextThat (p := fun u => u.fault == none) (by decide), by decide⟩

/-- One step of the swapping bundle. -/
theorem step_swap : ∃ t, step swapState = .next t ∧ (t.gr[1] == 2 && t.fault == none && !t.halted) = true :=
  of_nextThat (p := fun t => t.gr[1] == 2 && t.fault == none && !t.halted) (by decide)

theorem reaches_one {s t : State} (h : step s = .next t) : Reaches s t :=
  ⟨1, by
    have h' : Sys2Proof.core.step s = .next t := h
    simp only [Host.Core.run, h']⟩

theorem witness_InstructionMemoryNeverChanges :
    ∃ t, Reaches swapState t ∧ (t.gr[1] == 2 && t.fault == none && !t.halted) = true := by
  obtain ⟨t, h, ht⟩ := step_swap
  exact ⟨t, reaches_one h, ht⟩

theorem witness_WrittenRegistersStayWritten :
    ∃ t, step swapState = .next t ∧ swapState.grWritten[1] = true ∧ (t.gr[1] == 2) = true := by
  obtain ⟨t, h, ht⟩ := of_nextThat (r := step swapState) (p := fun t => t.gr[1] == 2) (by decide)
  exact ⟨t, h, by decide, ht⟩

theorem inv_swap : swapState.Inv := by unfold State.Inv; decide

theorem inv_start : start.Inv := by unfold State.Inv; decide

theorem witness_EveryStepKeepsTheInvariant : ∃ t, swapState.Inv ∧ step swapState = .next t := by
  obtain ⟨t, h, -⟩ := step_swap
  exact ⟨t, inv_swap, h⟩

/-- A launch that names GR 1 twice, BR 3 twice and byte 16 twice: the last value counts. -/
def twice : Launch :=
  { program := [alone 0], gr := [(1, 5), (2, 6), (1, 7)], br := [(3, true), (3, false)]
    dmem := [(16, 1), (17, 2), (16, 3)], dmemBytes := 64 }

theorem witness_LaunchNamesTheInitialState :
    (twice.gr = [(1, 5), (2, 6)] ++ (1, 7) :: [] ∧ (1 : GR) ≠ 0) ∧ (∀ p ∈ twice.gr, p.1 ≠ 4) ∧
    (twice.br = [(3, true)] ++ (3, false) :: []) ∧ (∀ p ∈ twice.br, p.1 ≠ 4) ∧
    (twice.dmem = [(16, 1), (17, 2)] ++ (16, 3) :: []) ∧ (∀ p ∈ twice.dmem, p.1 ≠ 18) ∧
    (State.launch twice).gr[1] = 7 ∧ (State.launch twice).br[3] = false ∧
    (State.launch twice).byteAt 16 = some 3 :=
  ⟨⟨rfl, by decide⟩, by simp [twice], rfl, by simp [twice], rfl, by simp [twice], by decide +kernel, by decide +kernel,
    by decide +kernel⟩

/-- A run that has halted, one that has faulted, and one that goes on. -/
theorem witness_RunsEndInExactlyOneOfThreeWays :
    stopState.Inv ∧ faultState.Inv ∧ swapState.Inv ∧
    (∃ t, Reaches stopState t ∧ (t.fault == none && t.halted) = true) ∧
    (∃ t, Reaches faultState t ∧ (t.fault == some (.unwrittenRead (.gr 5))) = true) ∧
    ∃ t, Reaches swapState t ∧ (t.gr[1] == 2 && t.fault == none && !t.halted) = true := by
  refine ⟨by unfold State.Inv; decide, by unfold State.Inv; decide, inv_swap, ?_, ?_,
    witness_InstructionMemoryNeverChanges⟩
  · obtain ⟨t, -, -, h, ht⟩ := witness_StopRule
    exact ⟨t, reaches_one h, ht⟩
  · obtain ⟨t, h, ht⟩ := witness_FaultIsPreciseAndEndsTheRun
    exact ⟨t, reaches_one h, ht⟩

end Sys2Proof.Tests
end

section
/-! PROOFS, spec/10_state.md R25: which operations write a branch register and which read one.

The idea is to give BR `k` another content (`State.withBr`) and to see what an operation makes of it. An operation whose
row of Table 30-C names BR `k` nowhere passes the content through (`PassesBr`); one that writes BR `k` and does not
read it leaves the same state, or raises a fault and then passes the content through (`OverwritesBr`). -/

namespace Sys2Proof.Machine

open Sys2Proof.Rules

/-! ### Another content for one BR -/

/-- The state with another value and another `written` flag in BR `k`. -/
def State.withBr (s : State) (k : BR) (c w : Bool) : State :=
  { s with br := s.br.set k c, brWritten := s.brWritten.set k w }

section WithBr

variable (s : State) (k : BR) (c w : Bool)

@[simp] theorem State.withBr_gr : (s.withBr k c w).gr = s.gr := rfl
@[simp] theorem State.withBr_grWritten : (s.withBr k c w).grWritten = s.grWritten := rfl
@[simp] theorem State.withBr_pc : (s.withBr k c w).pc = s.pc := rfl
@[simp] theorem State.withBr_dmem : (s.withBr k c w).dmem = s.dmem := rfl
@[simp] theorem State.withBr_halted : (s.withBr k c w).halted = s.halted := rfl
@[simp] theorem State.withBr_fault : (s.withBr k c w).fault = s.fault := rfl

@[simp] theorem State.withBr_br_self : (s.withBr k c w).br[k] = c := by simp [State.withBr]
@[simp] theorem State.withBr_brWritten_self : (s.withBr k c w).brWritten[k] = w := by simp [State.withBr]

variable {k} in
theorem State.withBr_br_of_ne {j : BR} (h : j ≠ k) : (s.withBr k c w).br[j] = s.br[j] := by
  have hne : (k : Nat) ≠ (j : Nat) := Fin.val_ne_of_ne h.symm
  simp [State.withBr, hne]

variable {k} in
theorem State.withBr_brWritten_of_ne {j : BR} (h : j ≠ k) :
    (s.withBr k c w).brWritten[j] = s.brWritten[j] := by
  have hne : (k : Nat) ≠ (j : Nat) := Fin.val_ne_of_ne h.symm
  simp [State.withBr, hne]

/-- The content a BR has already changes nothing. -/
theorem State.withBr_same : s.withBr k s.br[k] s.brWritten[k] = s := by simp [State.withBr]

/-! What reads no BR sees no difference. -/

@[simp] theorem State.readGr_withBr (i : GR) : (s.withBr k c w).readGr i = s.readGr i := rfl
@[simp] theorem State.grReady_withBr (i : GR) : (s.withBr k c w).grReady i = s.grReady i := rfl
@[simp] theorem State.ea_withBr (i : GR) (off : Word) : (s.withBr k c w).ea i off = s.ea i off := rfl
@[simp] theorem State.indirectTarget_withBr : (s.withBr k c w).indirectTarget = s.indirectTarget := rfl
@[simp] theorem State.memRead_withBr (a : Word) (n : Width) : (s.withBr k c w).memRead a n = s.memRead a n := rfl
@[simp] theorem State.src2_withBr (a : Src2) : (s.withBr k c w).src2 a = s.src2 a := by cases a <;> rfl

variable {k} in
theorem State.readBr_withBr_of_ne {j : BR} (h : j ≠ k) : (s.withBr k c w).readBr j = s.readBr j :=
  s.withBr_br_of_ne c w h

/-! Every update but one of BR `k` commutes with it. -/

@[simp] theorem State.raise_withBr (x : Cause) : (s.withBr k c w).raise x = (s.raise x).withBr k c w := rfl
@[simp] theorem State.advance_withBr : (s.withBr k c w).advance = s.advance.withBr k c w := rfl
@[simp] theorem State.jump_withBr (p : Pc) : (s.withBr k c w).jump p = (s.jump p).withBr k c w := rfl

@[simp] theorem State.writeGr_withBr (i : GR) (v : Word) :
    (s.withBr k c w).writeGr i v = (s.writeGr i v).withBr k c w := by
  unfold State.writeGr
  split <;> rfl

@[simp] theorem State.writeLr_withBr (v : Word) : (s.withBr k c w).writeLr v = (s.writeLr v).withBr k c w :=
  s.writeGr_withBr k c w _ v

@[simp] theorem State.drawTo_withBr (t : GR) : (s.withBr k c w).drawTo t = (s.drawTo t).withBr k c w :=
  congrArg (fun u : State => { u with draws := s.draws + 1 }) (s.writeGr_withBr k c w t _)

variable {k} in
theorem State.writeBr_withBr_of_ne {b : BR} (h : b ≠ k) (v : Bool) :
    (s.withBr k c w).writeBr b v = (s.writeBr b v).withBr k c w := by
  have hne : (k : Nat) ≠ (b : Nat) := Fin.val_ne_of_ne h.symm
  simp [State.withBr, State.writeBr, Vector.set_comm _ _ hne]

/-- A write of BR `k` discards its content. -/
@[simp] theorem State.writeBr_withBr_self (v : Bool) : (s.withBr k c w).writeBr k v = s.writeBr k v := by
  simp [State.withBr, State.writeBr]

/-! ### Reading registers -/

@[simp] theorem State.lowestUnwrittenGr_withBr (grs : List GR) :
    (s.withBr k c w).lowestUnwrittenGr grs = s.lowestUnwrittenGr grs := by
  induction grs with
  | nil => rfl
  | cons i rest ih => simp only [State.lowestUnwrittenGr, ih, State.grReady_withBr]

variable {k} in
theorem State.lowestUnwrittenBr_withBr {brs : List BR} (h : k ∉ brs) :
    (s.withBr k c w).lowestUnwrittenBr brs = s.lowestUnwrittenBr brs := by
  induction brs with
  | nil => rfl
  | cons i rest ih =>
    obtain ⟨hi, hrest⟩ := List.ne_and_not_mem_of_not_mem_cons h
    have hready : (s.withBr k c w).brReady i = s.brReady i := s.withBr_brWritten_of_ne c w (Ne.symm hi)
    simp only [State.lowestUnwrittenBr, ih hrest, hready]

variable {k} in
theorem State.unwritten_withBr (grs : List GR) {brs : List BR} (h : k ∉ brs) :
    (s.withBr k c w).unwritten grs brs = s.unwritten grs brs := by
  simp only [State.unwritten, State.lowestUnwrittenGr_withBr, s.lowestUnwrittenBr_withBr c w h]

end WithBr

/-! ### Operations that pass BR `k` through -/

/-- The outcome with BR `k` of its next state given another content. -/
def resultWithBr (k : BR) (c w : Bool) : Result → Result
  | .next t => .next (t.withBr k c w)
  | .fault r => .fault r
  | .refused r => .refused r

@[simp] theorem resultWithBr_next (k : BR) (c w : Bool) (t : State) :
    resultWithBr k c w (.next t) = .next (t.withBr k c w) := rfl

/-- An operation that neither reads nor writes BR `k`: whatever the BR holds comes out as it went in, and the rest of
the outcome is the same. -/
def PassesBr (k : BR) (op : State → Result) : Prop :=
  ∀ s c w, op (s.withBr k c w) = resultWithBr k c w (op s)

section Passes

variable {k : BR}

/-- Reading registers other than BR `k` passes it through when what follows does. -/
theorem reading_passesBr (grs : List GR) {brs : List BR} {f : State → Result} (hk : k ∉ brs) (hf : PassesBr k f) :
    PassesBr k fun s => reading grs brs s (f s) := by
  intro s c w
  simp only [reading, s.unwritten_withBr c w grs hk]
  cases s.unwritten grs brs with
  | none => exact hf s c w
  | some p => rfl

theorem binaryOp_passesBr {t s1 : GR} {a : Src2} {f : Word → Word → Word} : PassesBr k (binaryOp t s1 a f) :=
  reading_passesBr _ List.not_mem_nil fun s c w => by simp

theorem shiftOp_passesBr {op : Params.Shift} {t s1 : GR} {a : Src2} {f : Word → Nat → Word} :
    PassesBr k (shiftOp op t s1 a f) :=
  reading_passesBr _ List.not_mem_nil fun s c w => by
    by_cases h : (s.src2 a).toNat ≤ 31 <;> simp [h]

theorem unaryOp_passesBr {t s1 : GR} {f : Word → Word} : PassesBr k (unaryOp t s1 f) :=
  reading_passesBr _ List.not_mem_nil fun s c w => by simp

theorem selectOp_passesBr {t : GR} {b1 : BR} {s1 : GR} {a : Src2} {f : Bool → Word → Word → Word}
    (hk : k ∉ [b1]) : PassesBr k (selectOp t b1 s1 a f) :=
  reading_passesBr _ hk fun s c w => by
    simp [s.readBr_withBr_of_ne c w (List.ne_of_not_mem_cons hk).symm]

theorem carryOp_passesBr {t : GR} {b b1 : BR} {s1 s2 : GR} {f : Bool → Word → Word → Word}
    {g : Bool → Word → Word → Bool} (hr : k ∉ [b1]) (hw : k ∉ [b]) : PassesBr k (carryOp t b b1 s1 s2 f g) :=
  reading_passesBr _ hr fun s c w => by
    simp [s.readBr_withBr_of_ne c w (List.ne_of_not_mem_cons hr).symm,
      State.writeBr_withBr_of_ne _ c w (List.ne_of_not_mem_cons hw).symm]

theorem truthOp_passesBr {d : Target} {s1 : GR} {a : Src2} {f : Word → Word → Bool}
    (hw : k ∉ targetBrWrites d) : PassesBr k (truthOp d s1 a f) :=
  reading_passesBr _ List.not_mem_nil fun s c w => by
    cases d with
    | gr t => simp [State.writeTruth]
    | br b => simp [State.writeTruth, State.writeBr_withBr_of_ne _ c w (List.ne_of_not_mem_cons hw).symm]

theorem execMtb_passesBr {b : BR} {s1 : GR} (hw : k ∉ [b]) : PassesBr k (execMtb b s1) :=
  reading_passesBr _ List.not_mem_nil fun s c w => by
    simp [State.writeBr_withBr_of_ne _ c w (List.ne_of_not_mem_cons hw).symm]

theorem loadOp_passesBr {n : Width} {ext : Word → Word} {t : GR} {off : Word} {s1 : GR} :
    PassesBr k (loadOp n ext t off s1) :=
  reading_passesBr _ List.not_mem_nil fun s c w => by
    simp only [State.memRead_withBr, State.ea_withBr]
    cases s.memRead (s.ea s1 off) n <;> simp

theorem storeOp_passesBr {n : Width} {off : Word} {s1 s2 : GR} : PassesBr k (storeOp n off s1 s2) :=
  reading_passesBr _ List.not_mem_nil fun s c w => by
    have hfault : (s.withBr k c w).accessFault (s.ea s1 off) n = s.accessFault (s.ea s1 off) n := rfl
    simp only [State.memWrite, State.ea_withBr, hfault]
    cases s.accessFault (s.ea s1 off) n <;> rfl

theorem branchOp_passesBr {b : BR} {off : Int} {taken : Bool → Bool} (hk : k ∉ [b]) :
    PassesBr k (branchOp b off taken) :=
  reading_passesBr _ hk fun s c w => by
    have hb := s.readBr_withBr_of_ne c w (List.ne_of_not_mem_cons hk).symm
    cases h : taken (s.readBr b) <;> simp [hb, h]

/-- An operation whose row of Table 30-C names BR `k` neither as read nor as written passes it through. -/
theorem exec_passesBr (i : Instr) (hr : k ∉ (access i).brReads) (hw : k ∉ (access i).brWrites) :
    PassesBr k (exec i) := by
  unfold exec
  cases i with
  | mpyll | mpyllu | mpylh | mpylhu | mpyhh | mpyhhu | mpyl | mpylu | mpyh | mpyhu | mpyhs
  | add | and | andc | max | maxu | min | minu | or | orc | sh1add | sh2add | sh3add | sh4add | sub | xor =>
    exact binaryOp_passesBr
  | shl | shr | shru => exact shiftOp_passesBr
  | sxtb | sxth | zxtb | zxth | mov => exact unaryOp_passesBr
  | slct | slctf => exact selectOp_passesBr hr
  | divs | addcg => exact carryOp_passesBr hr hw
  | cmpeq | cmpge | cmpgeu | cmpgt | cmpgtu | cmple | cmpleu | cmplt | cmpltu | cmpne
  | nandl | norl | orl | andl => exact truthOp_passesBr hw
  | mtb => exact execMtb_passesBr hw
  | ldw | ldh | ldhu | ldb | ldbu => exact loadOp_passesBr
  | stw | sth | stb => exact storeOp_passesBr
  | br | brf => exact branchOp_passesBr hr
  | pft | igoto => exact reading_passesBr _ List.not_mem_nil fun s c w => rfl
  | icall | ret => exact reading_passesBr _ List.not_mem_nil fun s c w => by simp
  | call => exact fun s c w => by simp [execCall]
  -- What is left writes no register: GOTO, STOP, NOP and XNOP, and the operations that only raise a fault.
  | _ => exact fun s c w => rfl

end Passes

/-! ### Operations that write BR `k` and do not read it -/

/-- An operation that overwrites BR `k`: whatever the BR holds, it leaves the same state, unless it raises a fault,
which leaves the BR as it was. -/
def OverwritesBr (k : BR) (op : State → Result) : Prop :=
  ∀ s c w u, op s = .next u →
    op (s.withBr k c w) = .next u ∨ op (s.withBr k c w) = .next (u.withBr k c w) ∧ u.fault ≠ none

section Overwrites

variable {k : BR}

theorem reading_overwritesBr (grs : List GR) {brs : List BR} {f : State → Result} (hk : k ∉ brs)
    (hf : ∀ s c w, f (s.withBr k c w) = f s) : OverwritesBr k fun s => reading grs brs s (f s) := by
  intro s c w u h
  simp only [reading, s.unwritten_withBr c w grs hk, hf] at h ⊢
  cases hp : s.unwritten grs brs with
  | none => exact .inl (by simpa only [hp] using h)
  | some p =>
    simp only [hp] at h
    cases h
    exact .inr ⟨rfl, by simp⟩

theorem truthOp_overwritesBr {s1 : GR} {a : Src2} {f : Word → Word → Bool} :
    OverwritesBr k (truthOp (.br k) s1 a f) :=
  reading_overwritesBr _ List.not_mem_nil fun s c w => by simp [State.writeTruth]

theorem execMtb_overwritesBr {s1 : GR} : OverwritesBr k (execMtb k s1) :=
  reading_overwritesBr _ List.not_mem_nil fun s c w => by simp

theorem carryOp_overwritesBr {t : GR} {b1 : BR} {s1 s2 : GR} {f : Bool → Word → Word → Word}
    {g : Bool → Word → Word → Bool} (hk : k ∉ [b1]) : OverwritesBr k (carryOp t k b1 s1 s2 f g) :=
  reading_overwritesBr _ hk fun s c w => by
    simp [s.readBr_withBr_of_ne c w (List.ne_of_not_mem_cons hk).symm]

end Overwrites

/-! ### Operations that keep BR `k` -/

/-- An operation that leaves BR `k` and its `written` flag as they are, whether or not it reads them. -/
def KeepsBr (k : BR) (op : State → Result) : Prop :=
  ∀ s t, op s = .next t → t.br[k] = s.br[k] ∧ t.brWritten[k] = s.brWritten[k]

section Keeps

variable {k : BR}

/-- What passes BR `k` through keeps it: give the BR the content it has. -/
theorem PassesBr.keepsBr {op : State → Result} (h : PassesBr k op) : KeepsBr k op := by
  intro s t ht
  have hsame := h s s.br[k] s.brWritten[k]
  rw [s.withBr_same, ht, resultWithBr_next] at hsame
  have ht' : t = t.withBr k s.br[k] s.brWritten[k] := Host.Outcome.next.inj hsame
  rw [ht']
  exact ⟨t.withBr_br_self k _ _, t.withBr_brWritten_self k _ _⟩

theorem selectOp_keepsBr {t : GR} {b1 : BR} {s1 : GR} {a : Src2} {f : Bool → Word → Word → Word} :
    KeepsBr k (selectOp t b1 s1 a f) := by
  intro s u h
  rcases selectOp_next h with ⟨x, rfl⟩ | rfl <;> simp

theorem branchOp_keepsBr {b : BR} {off : Int} {taken : Bool → Bool} : KeepsBr k (branchOp b off taken) := by
  intro s u h
  rcases branchOp_next h with ⟨x, rfl⟩ | rfl | rfl <;> simp

theorem carryOp_keepsBr {t : GR} {b b1 : BR} {s1 s2 : GR} {f : Bool → Word → Word → Word}
    {g : Bool → Word → Word → Bool} (hk : k ∉ [b]) : KeepsBr k (carryOp t b b1 s1 s2 f g) := by
  intro s u h
  rcases carryOp_next h with ⟨x, rfl⟩ | rfl
  · exact ⟨rfl, rfl⟩
  · simp only [State.advance_br, State.advance_brWritten, writeBr_getElem, writeBr_written_getElem,
      if_neg (List.ne_of_not_mem_cons hk), State.writeGr_br, State.writeGr_brWritten, and_self]

end Keeps

/-! ### R25's lists -/

/-- R25's list of the operations that write a BR is the BR column of the writes in Table 30-C. -/
theorem writesBr_iff (i : Instr) (k : BR) : WritesBr i k ↔ k ∈ (access i).brWrites := by
  cases i with
  | cmpeq d | cmpge d | cmpgeu d | cmpgt d | cmpgtu d | cmple d | cmpleu d | cmplt d | cmpltu d | cmpne d
  | nandl d | norl d | orl d | andl d => cases d <;> simp [WritesBr, access, targetBrWrites, eq_comm]
  | mtb | divs | addcg => simp [WritesBr, access, eq_comm]
  | _ => simp [WritesBr, access]

/-- R25's list of the operations that read a BR is the BR column of the reads in Table 30-C. -/
theorem readsBr_iff (i : Instr) (k : BR) : ReadsBr i k ↔ k ∈ (access i).brReads := by
  cases i with
  | slct | slctf | divs | addcg | br | brf => simp [ReadsBr, access, eq_comm]
  | _ => simp [ReadsBr, access]

/-- An operation without BR `k` as its target keeps it: of those that read it, the selects and the branches write no
BR, and ADDCG and DIVS another one. -/
theorem exec_keepsBr {i : Instr} {k : BR} (hw : ¬ WritesBr i k) : KeepsBr k (exec i) := by
  rw [writesBr_iff] at hw
  by_cases hr : ReadsBr i k
  · unfold exec
    obtain ⟨t, s1, a, rfl | rfl⟩ | ⟨t, b, s1, s2, rfl | rfl⟩ | ⟨off, rfl | rfl⟩ := hr
    · exact selectOp_keepsBr
    · exact selectOp_keepsBr
    · exact carryOp_keepsBr hw
    · exact carryOp_keepsBr hw
    · exact branchOp_keepsBr
    · exact branchOp_keepsBr
  · rw [readsBr_iff] at hr
    exact (exec_passesBr i hr hw).keepsBr

/-- An operation with BR `k` as its target and not as its source overwrites it. -/
theorem exec_overwritesBr {i : Instr} {k : BR} (hw : WritesBr i k) (hr : ¬ ReadsBr i k) :
    OverwritesBr k (exec i) := by
  rw [readsBr_iff] at hr
  rcases hw with ⟨s1, a, hi⟩ | ⟨s1, rfl⟩ | ⟨t, b1, s1, s2, rfl | rfl⟩
  · rcases hi with rfl | rfl | rfl | rfl | rfl | rfl | rfl | rfl | rfl | rfl | rfl | rfl | rfl | rfl <;>
      exact truthOp_overwritesBr
  · exact execMtb_overwritesBr
  · exact carryOp_overwritesBr hr
  · exact carryOp_overwritesBr hr

/-- What an operation that does not read BR `k` does when the BR has another content: it leaves the same state, or the
same but for that content, the latter only where it does not write the BR or raises a fault. -/
theorem exec_withBr {i : Instr} {k : BR} {s u : State} (c w : Bool) (hr : ¬ ReadsBr i k) (h : exec i s = .next u) :
    exec i (s.withBr k c w) = .next u ∨
    exec i (s.withBr k c w) = .next (u.withBr k c w) ∧ (WritesBr i k → u.fault ≠ none) := by
  by_cases hw : WritesBr i k
  · exact (exec_overwritesBr hw hr s c w u h).imp_right fun ⟨he, hf⟩ => ⟨he, fun _ => hf⟩
  · have hp := exec_passesBr i (mt (readsBr_iff i k).2 hr) (mt (writesBr_iff i k).2 hw) s c w
    rw [h] at hp
    exact .inr ⟨hp, fun hw' => absurd hw' hw⟩

/-- Settles O50: what is no target is kept, and another content of a BR that is no source stays in that BR. -/
theorem onlyTheseOperationsWriteOrReadBranchRegisters :
    Obligations.OnlyTheseOperationsWriteOrReadBranchRegisters := by
  unfold Obligations.OnlyTheseOperationsWriteOrReadBranchRegisters
  refine ⟨fun i s t k h hchanged => ?_, fun i s u k c w hr h => ?_⟩
  · by_contra hw
    obtain ⟨hbr, hwritten⟩ := exec_keepsBr hw s t h
    exact hchanged.elim (absurd hbr) (absurd hwritten)
  · rcases exec_withBr c w hr h with he | ⟨he, hfault⟩
    · exact ⟨u, he, by simp⟩
    · exact ⟨u.withBr k c w, he, fun _ => u.withBr_gr k c w, by simp, u.withBr_grWritten k c w,
        u.withBr_dmem k c w, u.withBr_pc k c w, u.withBr_halted k c w, u.withBr_fault k c w,
        fun j hj => ⟨u.withBr_br_of_ne c w hj, u.withBr_brWritten_of_ne c w hj⟩,
        fun hw hnone => absurd hnone (hfault hw)⟩

end Sys2Proof.Machine
end

section
/-! PROOFS, spec/20_memory.md R49: no operation reads data memory and writes it.

An operation whose row of Table 30-C lists no store keeps data memory (`KeepsDmem`), so one that changes it is a store.
What a store checks and stores is taken from the registers alone (`storeOp_of_ready`), so it goes through with any other
contents of data memory and stores the same bytes at the same address there. -/

namespace Sys2Proof.Machine

/-! ### Operations that keep data memory -/

/-- An operation that leaves data memory as it is, whether or not it reads it. -/
def KeepsDmem (op : State → Result) : Prop := ∀ s u, op s = .next u → u.dmem = s.dmem

theorem raise_keepsDmem (c : Cause) : KeepsDmem fun s => .next (s.raise c) := by
  rintro s u ⟨⟩
  rfl

/-- Reading registers keeps data memory when what follows does. -/
theorem reading_keepsDmem (grs : List GR) (brs : List BR) {f : State → Result} (hf : KeepsDmem f) :
    KeepsDmem fun s => reading grs brs s (f s) := by
  intro s u h
  rcases reading_next h with ⟨p, rfl⟩ | hnext
  · rfl
  · exact hf s u hnext

theorem binaryOp_keepsDmem {t s1 : GR} {a : Src2} {f : Word → Word → Word} : KeepsDmem (binaryOp t s1 a f) := by
  intro s u h
  rcases binaryOp_next h with ⟨c, rfl⟩ | rfl <;> simp

theorem shiftOp_keepsDmem {op : Params.Shift} {t s1 : GR} {a : Src2} {f : Word → Nat → Word} :
    KeepsDmem (shiftOp op t s1 a f) := by
  intro s u h
  rcases shiftOp_next h with ⟨c, rfl⟩ | ⟨-, rfl⟩ | ⟨-, rfl⟩ <;> simp

theorem unaryOp_keepsDmem {t s1 : GR} {f : Word → Word} : KeepsDmem (unaryOp t s1 f) := by
  intro s u h
  rcases unaryOp_next h with ⟨c, rfl⟩ | rfl <;> simp

theorem selectOp_keepsDmem {t : GR} {b1 : BR} {s1 : GR} {a : Src2} {f : Bool → Word → Word → Word} :
    KeepsDmem (selectOp t b1 s1 a f) := by
  intro s u h
  rcases selectOp_next h with ⟨c, rfl⟩ | rfl <;> simp

theorem carryOp_keepsDmem {t : GR} {b b1 : BR} {s1 s2 : GR} {f : Bool → Word → Word → Word}
    {g : Bool → Word → Word → Bool} : KeepsDmem (carryOp t b b1 s1 s2 f g) := by
  intro s u h
  rcases carryOp_next h with ⟨c, rfl⟩ | rfl <;> simp

theorem truthOp_keepsDmem {d : Target} {s1 : GR} {a : Src2} {f : Word → Word → Bool} :
    KeepsDmem (truthOp d s1 a f) := by
  intro s u h
  rcases truthOp_next h with ⟨c, rfl⟩ | rfl <;> simp

theorem loadOp_keepsDmem {n : Width} {ext : Word → Word} {t : GR} {off : Word} {s1 : GR} :
    KeepsDmem (loadOp n ext t off s1) := by
  intro s u h
  rcases loadOp_next h with ⟨c, rfl⟩ | ⟨v, -, rfl⟩ <;> simp

theorem branchOp_keepsDmem {b : BR} {off : Int} {taken : Bool → Bool} : KeepsDmem (branchOp b off taken) := by
  intro s u h
  rcases branchOp_next h with ⟨c, rfl⟩ | rfl | rfl <;> simp

/-- An operation whose row of Table 30-C lists no store keeps data memory. -/
theorem exec_keepsDmem {i : Instr} (hi : (access i).store = none) : KeepsDmem (exec i) := by
  unfold exec
  cases i with
  | stw | sth | stb => cases hi
  | mpyll | mpyllu | mpylh | mpylhu | mpyhh | mpyhhu | mpyl | mpylu | mpyh | mpyhu | mpyhs
  | add | and | andc | max | maxu | min | minu | or | orc | sh1add | sh2add | sh3add | sh4add | sub | xor =>
    exact binaryOp_keepsDmem
  | shl | shr | shru => exact shiftOp_keepsDmem
  | sxtb | sxth | zxtb | zxth | mov => exact unaryOp_keepsDmem
  | slct | slctf => exact selectOp_keepsDmem
  | divs | addcg => exact carryOp_keepsDmem
  | cmpeq | cmpge | cmpgeu | cmpgt | cmpgtu | cmple | cmpleu | cmplt | cmpltu | cmpne
  | nandl | norl | orl | andl => exact truthOp_keepsDmem
  | ldw | ldh | ldhu | ldb | ldbu => exact loadOp_keepsDmem
  | br | brf => exact branchOp_keepsDmem
  | mtb | pft | igoto | icall | ret =>
    exact reading_keepsDmem _ _ fun s u h => by
      cases h
      simp
  | call =>
    rintro s u ⟨⟩
    simp
  | nop | xnop | goto | stop =>
    rintro s u ⟨⟩
    rfl
  -- What is left only raises a fault: RFI, SEND, RECV, SYL_FOLLOW and the reserved codes.
  | _ => exact raise_keepsDmem _

/-! ### Stores, whatever data memory holds -/

/-- A row of Table 30-C that lists a store belongs to a store operation. -/
theorem exec_eq_storeOp {i : Instr} {x : StoreAt} (hi : (access i).store = some x) :
    ∃ s2, exec i = storeOp x.width x.offset x.base s2 := by
  cases i with
  | stw off s1 s2 | sth off s1 s2 | stb off s1 s2 =>
    cases hi
    exact ⟨s2, rfl⟩
  | _ => cases hi

/-- The state with other contents of data memory. -/
def State.withDmem (s : State) (m : Memory) : State := { s with dmem := m }

/-- Memory `m` after the bytes of a store, their address and their values from the registers of `s`. -/
def State.storeInto (s : State) (w : Width) (off : Word) (s1 s2 : GR) (m : Memory) : Memory :=
  m.writeBytes (s.ea s1 off).toNat (splitBytes Params.endian (s.readGr s2) w.bytes)

section Store

variable {w : Width} {off : Word} {s1 s2 : GR} {s : State}

/-- A store whose registers are written and whose access raises nothing goes through. -/
theorem storeOp_of_ready (hread : s.unwritten [s1, s2] [] = none) (hfault : s.accessFault (s.ea s1 off) w = none) :
    storeOp w off s1 s2 s = .next (s.withDmem (s.storeInto w off s1 s2 s.dmem)).advance := by
  simp only [storeOp, reading, hread, State.memWrite, hfault, accessAddr_eq, State.withDmem, State.storeInto]

/-- A store that changes data memory went through. -/
theorem storeOp_ready_of_changed {u : State} (h : storeOp w off s1 s2 s = .next u) (hne : u.dmem ≠ s.dmem) :
    s.unwritten [s1, s2] [] = none ∧ s.accessFault (s.ea s1 off) w = none := by
  rcases storeOp_next h with ⟨c, rfl⟩ | ⟨t, hwrite, -⟩
  · exact absurd (s.raise_dmem c) hne
  · refine ⟨?_, (memWrite_eq_ok hwrite).1⟩
    rcases reading_cases [s1, s2] [] s _ with ⟨hread, -⟩ | ⟨p, -, hraise⟩
    · exact hread
    · cases hraise.symm.trans h
      exact absurd (s.raise_dmem _) hne

/-- With other contents of data memory a store that went through still does, and stores the same bytes: neither the
registers read nor the checks of the access see data memory. -/
theorem storeOp_withDmem (m : Memory) (hread : s.unwritten [s1, s2] [] = none)
    (hfault : s.accessFault (s.ea s1 off) w = none) :
    storeOp w off s1 s2 (s.withDmem m) = .next (s.withDmem (s.storeInto w off s1 s2 m)).advance :=
  storeOp_of_ready (s := s.withDmem m) hread hfault

end Store

/-- A byte that stored bytes change has their value in any other memory they are stored in. -/
theorem Memory.read_writeBytes_of_changed {m : Memory} {a x : Nat} {bs : List Byte} (m' : Memory)
    (hne : (m.writeBytes a bs).read x ≠ m.read x) : (m'.writeBytes a bs).read x = (m.writeBytes a bs).read x := by
  by_cases hin : a ≤ x ∧ x < a + bs.length
  · rw [Memory.read_writeBytes, Memory.read_writeBytes, if_pos hin, if_pos hin]
  · exact absurd (Memory.read_writeBytes_outside m a x bs (by omega)) hne

/-- Settles O51: what changes data memory is a store, and a store takes its bytes and their address from registers. -/
theorem noOperationReadsAndWritesMemory : Obligations.NoOperationReadsAndWritesMemory := by
  unfold Obligations.NoOperationReadsAndWritesMemory
  intro i s u h hne
  cases hstore : (access i).store with
  | none => exact absurd (exec_keepsDmem hstore s u h) hne
  | some x =>
    obtain ⟨s2, hexec⟩ := exec_eq_storeOp hstore
    rw [hexec] at h ⊢
    obtain ⟨hread, hfault⟩ := storeOp_ready_of_changed h hne
    cases (storeOp_of_ready hread hfault).symm.trans h
    exact ⟨rfl, rfl, rfl, rfl, fun m => ⟨s.storeInto x.width x.offset x.base s2 m, storeOp_withDmem m hread hfault,
      fun _ hchanged => Memory.read_writeBytes_of_changed m hchanged⟩⟩

end Sys2Proof.Machine
end

section
/-! PROOFS, the decoder: what a syllable of each operation's opcode decodes to, said once as a row of Table 30-C
(spec/30_encoding.md R66, R67), and what the decoder does not see. -/

namespace Sys2Proof

open Sys2Proof.Rules

/-! ### The rows of Table 30-C -/

/-- What the decoder makes of a syllable once its opcode is known. The arguments are the fields `dst`, `src1`, `src2`
and `bdst`, or the immediate or offset, that the row's forms carry. -/
inductive Row where
  /-- Rows I, II, III and VI: a register form and the two immediate forms. -/
  | source (reg : BitVec 6 → BitVec 6 → BitVec 6 → BitVec 3 → Instr) (imm : BitVec 6 → BitVec 6 → Word → Instr)
  /-- Rows X, XI and XII: the two immediate forms only. -/
  | offset (imm : BitVec 6 → BitVec 6 → Word → Instr)
  /-- Rows IV, V and VII: the register form only. -/
  | registers (reg : BitVec 6 → BitVec 6 → BitVec 6 → BitVec 3 → Instr)
  /-- Rows VIII, XIII, XVI and XVII: the branch form only. -/
  | label (mk : BitVec 6 → BitVec 12 → BitVec 3 → Instr)
  /-- Rows XIV, XV, XIX and XX, reserved codes and SYL_FOLLOW: every value of the switch, with the cycle count and the
  payload that the syllable would carry. -/
  | free (mk : Option Nat → BitVec 23 → Instr)

/-- Rows I, with `mk t s1 src2`. -/
def Row.ofTypeI (mk : GR → GR → Src2 → Instr) : Row :=
  .source (fun d a c _ => mk d.toFin a.toFin (.reg c.toFin)) (fun d a v => mk d.toFin a.toFin (.imm v))

/-- Rows II: `dst` = 0 selects the BR target of the register form. -/
def Row.ofTypeII (mk : Target → GR → Src2 → Instr) : Row :=
  .source (fun d a c b => mk (if d = 0 then .br b.toFin else .gr d.toFin) a.toFin (.reg c.toFin))
    (fun d a v => mk (.gr d.toFin) a.toFin (.imm v))

/-- Rows X, with `mk t off s1`. -/
def Row.ofTypeX (mk : GR → Word → GR → Instr) : Row := .offset fun d a v => mk d.toFin v a.toFin

/-- Row XI, with `mk off s1 s2`. -/
def Row.ofTypeXI (mk : Word → GR → GR → Instr) : Row := .offset fun d a v => mk v a.toFin d.toFin

/-- The row of an operation. -/
def Instr.row : Instr → Row
  | .mpyll _ _ _ => .ofTypeI .mpyll
  | .mpyllu _ _ _ => .ofTypeI .mpyllu
  | .mpylh _ _ _ => .ofTypeI .mpylh
  | .mpylhu _ _ _ => .ofTypeI .mpylhu
  | .mpyhh _ _ _ => .ofTypeI .mpyhh
  | .mpyhhu _ _ _ => .ofTypeI .mpyhhu
  | .mpyl _ _ _ => .ofTypeI .mpyl
  | .mpylu _ _ _ => .ofTypeI .mpylu
  | .mpyh _ _ _ => .ofTypeI .mpyh
  | .mpyhu _ _ _ => .ofTypeI .mpyhu
  | .mpyhs _ _ _ => .ofTypeI .mpyhs
  | .add _ _ _ => .ofTypeI .add
  | .and _ _ _ => .ofTypeI .and
  | .andc _ _ _ => .ofTypeI .andc
  | .max _ _ _ => .ofTypeI .max
  | .maxu _ _ _ => .ofTypeI .maxu
  | .min _ _ _ => .ofTypeI .min
  | .minu _ _ _ => .ofTypeI .minu
  | .or _ _ _ => .ofTypeI .or
  | .orc _ _ _ => .ofTypeI .orc
  | .sh1add _ _ _ => .ofTypeI .sh1add
  | .sh2add _ _ _ => .ofTypeI .sh2add
  | .sh3add _ _ _ => .ofTypeI .sh3add
  | .sh4add _ _ _ => .ofTypeI .sh4add
  | .shl _ _ _ => .ofTypeI .shl
  | .shr _ _ _ => .ofTypeI .shr
  | .shru _ _ _ => .ofTypeI .shru
  | .xor _ _ _ => .ofTypeI .xor
  | .sub _ _ _ => .ofTypeI fun t s1 a => .sub t a s1
  | .cmpeq _ _ _ => .ofTypeII .cmpeq
  | .cmpge _ _ _ => .ofTypeII .cmpge
  | .cmpgeu _ _ _ => .ofTypeII .cmpgeu
  | .cmpgt _ _ _ => .ofTypeII .cmpgt
  | .cmpgtu _ _ _ => .ofTypeII .cmpgtu
  | .cmple _ _ _ => .ofTypeII .cmple
  | .cmpleu _ _ _ => .ofTypeII .cmpleu
  | .cmplt _ _ _ => .ofTypeII .cmplt
  | .cmpltu _ _ _ => .ofTypeII .cmpltu
  | .cmpne _ _ _ => .ofTypeII .cmpne
  | .nandl _ _ _ => .ofTypeII .nandl
  | .norl _ _ _ => .ofTypeII .norl
  | .orl _ _ _ => .ofTypeII .orl
  | .andl _ _ _ => .ofTypeII .andl
  | .slct _ b1 _ _ => .ofTypeI fun t s1 a => .slct t b1 s1 a
  | .slctf _ b1 _ _ => .ofTypeI fun t s1 a => .slctf t b1 s1 a
  | .ldw _ _ _ => .ofTypeX .ldw
  | .ldh _ _ _ => .ofTypeX .ldh
  | .ldhu _ _ _ => .ofTypeX .ldhu
  | .ldb _ _ _ => .ofTypeX .ldb
  | .ldbu _ _ _ => .ofTypeX .ldbu
  | .stw _ _ _ => .ofTypeXI .stw
  | .sth _ _ _ => .ofTypeXI .sth
  | .stb _ _ _ => .ofTypeXI .stb
  | .pft _ _ => .offset fun _ a v => .pft v a.toFin
  | .divs _ _ b1 _ _ => .registers fun d a c b => .divs d.toFin b.toFin b1 a.toFin c.toFin
  | .addcg _ _ b1 _ _ => .registers fun d a c b => .addcg d.toFin b.toFin b1 a.toFin c.toFin
  | .sxtb _ _ => .registers fun d a _ _ => .sxtb d.toFin a.toFin
  | .sxth _ _ => .registers fun d a _ _ => .sxth d.toFin a.toFin
  | .zxtb _ _ => .registers fun d a _ _ => .zxtb d.toFin a.toFin
  | .zxth _ _ => .registers fun d a _ _ => .zxth d.toFin a.toFin
  | .mov _ _ => .registers fun d a _ _ => .mov d.toFin a.toFin
  | .mtb _ _ => .registers fun _ a _ b => .mtb b.toFin a.toFin
  | .goto _ => .label fun _ o _ => .goto o.toInt
  | .call _ => .label fun _ o _ => .call o.toInt
  | .br _ _ => .label fun _ o b => .br b.toFin o.toInt
  | .brf _ _ => .label fun _ o b => .brf b.toFin o.toInt
  | .ret _ _ => .label fun d o _ => .ret d.toFin o.toInt
  | .xnop _ => .free fun n _ => .xnop n
  | .sylFollow _ => .free fun _ p => .sylFollow p
  | .send _ => .free fun _ _ => .send none
  | .recv _ => .free fun _ _ => .recv none
  | i => .free fun _ _ => i

/-- Decoding by a row. -/
def Row.decode (w : Syllable) (rest : List Syllable) : Row → Decoded
  | .source reg imm =>
    match w.switch with
    | .register => plain (reg w.dst w.src1 w.src2 w.bdst)
    | .short => immOperand w rest (imm w.dst w.src1)
    | .branch => .error .badForm
    | .long => immOperand w rest (imm w.dst w.src1)
  | .offset imm => immOperand w rest (imm w.dst w.src1)
  | .registers reg => registerOnly w (reg w.dst w.src1 w.src2 w.bdst)
  | .label mk => branchOnly w (mk w.dst w.off12 w.bdst)
  | .free mk => plain (mk w.cycles w.payload)

/-- The opcodes below the four exceptional ones are looked up in Table 30-D. -/
theorem decodeSyllable_of_opcode {w : Syllable} {op : BitVec 7} (rest : List Syllable) (h : w.opcode = op)
    (hop : op.extractLsb' 3 4 ∉ [0b0110#4, 0b0111#4, 0b1110#4, 0b1111#4]) :
    decodeSyllable w rest = decodeOpcode w rest := by
  simp only [List.mem_cons, List.not_mem_nil, or_false, not_or] at hop
  simp only [decodeSyllable, exceptional_eq, h, hop, if_false]

theorem decodeSyllable_eq_row {w : Syllable} {i : Instr} (rest : List Syllable) (h : w.opcode = i.opcode) :
    decodeSyllable w rest = i.row.decode w rest := by
  cases i with
  | slct t b1 s1 a | slctf t b1 s1 a | divs t b b1 s1 s2 | addcg t b b1 s1 s2 =>
    have hb1 : w.b1 = BR.toBits b1 := by rw [b1_eq, h]; exact b1_append _ _
    simp only [decodeSyllable, exceptional_eq, h, Instr.opcode, exceptional_append, typeIII, typeIV, hb1, brOf_toBits]
    rfl
  | _ =>
    rw [decodeSyllable_of_opcode rest h (by rw [Instr.opcode]; decide)]
    unfold decodeOpcode
    rw [h]
    rfl

/-- Every one of the 128 opcodes decodes with some switch, to an operation that has it. -/
theorem exists_switch_decodes : ∀ op : BitVec 7, ∃ sw : BitVec 2,
    (decodeSyllable (op ++ sw ++ 0#23) [followWord 0]).toOption.any (fun p => p.1.opcode == op) = true := by
  decide +kernel

/-- Table 30-D lists every opcode. -/
theorem exists_opcode (op : BitVec 7) : ∃ i : Instr, i.opcode = op := by
  obtain ⟨sw, h⟩ := exists_switch_decodes op
  obtain ⟨_, hi⟩ := (Option.any_eq_true_iff_get _ _).1 h
  exact ⟨_, beq_iff_eq.1 hi⟩

end Sys2Proof
end

section
/-! PROOFS, decode and encode agree (spec/30_encoding.md R61, R67 to R69): the syllables of each shape that the encoder
writes decode by the row of their operation to the operation itself. -/

namespace Sys2Proof

/-! ### The switch of the encoder's syllables -/

@[simp] theorem registerWord_switch (op : BitVec 7) (d a c : GR) (b : BR) :
    (registerWord op d a c b).switch = .register := by simp [Syllable.switch]
@[simp] theorem immWord_switch_short (op : BitVec 7) (d a : GR) (v : Imm9) :
    (immWord op 0b01#2 d a v).switch = .short := by simp [Syllable.switch]
@[simp] theorem immWord_switch_long (op : BitVec 7) (d a : GR) (v : Imm9) :
    (immWord op 0b11#2 d a v).switch = .long := by simp [Syllable.switch]
@[simp] theorem branchWord_switch (op : BitVec 7) (d : GR) (off : Off12) (b : BR) :
    (branchWord op d off b).switch = .branch := by simp [Syllable.switch]

/-! ### Immediates -/

/-- The short immediate is sign-extended (R68). -/
theorem immOperand_short (op : BitVec 7) (d a : GR) (v : Imm9) (rest : List Syllable) (k : Word → Instr) :
    immOperand (immWord op 0b01#2 d a v) rest k = .ok (k (v.signExtend 32), false) := by
  simp [immOperand, Syllable.shortImm]

/-- The long immediate takes its high bits from the SYL_FOLLOW after it (R69). -/
theorem immOperand_long (op : BitVec 7) (d a : GR) (v : Imm9) {f : Syllable} (hf : f.opcode = 0b0011100#7)
    (rest : List Syllable) (k : Word → Instr) :
    immOperand (immWord op 0b11#2 d a v) (f :: rest) k = .ok (k (f.payload ++ v), true) := by
  simp [immOperand, Syllable.longImm, hf]

/-- Without that SYL_FOLLOW the long immediate is refused (R69). -/
theorem immOperand_long_alone (op : BitVec 7) (d a : GR) (v : Imm9) {rest : List Syllable}
    (hrest : ∀ f ∈ rest.head?, f.opcode ≠ 0b0011100#7) (k : Word → Instr) :
    immOperand (immWord op 0b11#2 d a v) rest k = .error .badLongImm := by
  cases rest with
  | nil => simp [immOperand, Syllable.longImm]
  | cons f rest => simp [immOperand, Syllable.longImm, hrest f rfl]

/-! ### The round trip, by the shape of the syllables -/

/-- Decoding these syllables, whatever follows, gives the operation and consumes exactly them. -/
def RoundTrip (i : Instr) (ws : List Syllable) : Prop :=
  ∃ w ws', ws = w :: ws' ∧ ws'.length ≤ 1 ∧
    ∀ rest, decodeSyllable w (ws' ++ rest) = .ok (i, decide (ws'.length = 1))

/-- One syllable that takes no second one. -/
theorem roundTrip_single {i : Instr} {w : Syllable} (h : ∀ rest, decodeSyllable w rest = plain i) :
    RoundTrip i [w] :=
  ⟨w, [], rfl, by simp, fun rest => h rest⟩

theorem roundTrip_registerWord {i : Instr} {reg : BitVec 6 → BitVec 6 → BitVec 6 → BitVec 3 → Instr} {d a c : GR}
    {b : BR} (hrow : (∃ imm, i.row = .source reg imm) ∨ i.row = .registers reg)
    (hi : reg d.toBits a.toBits c.toBits b.toBits = i) : RoundTrip i [registerWord i.opcode d a c b] :=
  roundTrip_single fun rest => by
    rw [decodeSyllable_eq_row rest (registerWord_opcode _ _ _ _ _)]
    rcases hrow with ⟨imm, hrow⟩ | hrow <;> simp [hrow, Row.decode, registerOnly, hi]

theorem roundTrip_immWords {i : Instr} {imm : BitVec 6 → BitVec 6 → Word → Instr} {d a : GR} {v : Word}
    (hrow : (∃ reg, i.row = .source reg imm) ∨ i.row = .offset imm) (hi : imm d.toBits a.toBits v = i) :
    RoundTrip i (immWords i.opcode d a v) := by
  unfold immWords
  by_cases hv : fitsShort v = true
  · have hv' : (v.setWidth 9).signExtend 32 = v := by simpa [fitsShort] using hv
    rw [if_pos hv]
    refine roundTrip_single fun rest => ?_
    rw [decodeSyllable_eq_row rest (immWord_opcode _ _ _ _ _)]
    rcases hrow with ⟨reg, hrow⟩ | hrow <;> simp [hrow, Row.decode, immOperand_short, hv', hi, plain]
  · rw [if_neg hv]
    refine ⟨_, _, rfl, le_rfl, fun rest => ?_⟩
    rw [decodeSyllable_eq_row _ (immWord_opcode _ _ _ _ _)]
    rcases hrow with ⟨reg, hrow⟩ | hrow <;> simp [hrow, Row.decode, immOperand_long, longImm_join, hi]

theorem roundTrip_branchWord {i : Instr} {mk : BitVec 6 → BitVec 12 → BitVec 3 → Instr} {d : GR} {off : Off12} {b : BR}
    (hrow : i.row = .label mk) (hi : mk d.toBits off b.toBits = i) : RoundTrip i [branchWord i.opcode d off b] :=
  roundTrip_single fun rest => by
    rw [decodeSyllable_eq_row rest (branchWord_opcode _ _ _ _)]
    simp [hrow, Row.decode, branchOnly, hi]

theorem roundTrip_free {i : Instr} {mk : Option Nat → BitVec 23 → Instr} {w : Syllable} (hrow : i.row = .free mk)
    (hw : w.opcode = i.opcode) (hi : mk w.cycles w.payload = i) : RoundTrip i [w] :=
  roundTrip_single fun rest => by rw [decodeSyllable_eq_row rest hw, hrow, Row.decode, hi]

/-- Rows I, III and VI. -/
theorem roundTrip_src2Words {mk : GR → GR → Src2 → Instr} {t s1 : GR} {a : Src2}
    (hrow : (mk t s1 a).row = .ofTypeI mk) : RoundTrip (mk t s1 a) (src2Words (mk t s1 a).opcode t s1 a) := by
  cases a with
  | reg s2 => exact roundTrip_registerWord (.inl ⟨_, hrow⟩) rfl
  | imm v => exact roundTrip_immWords (.inl ⟨_, hrow⟩) rfl

/-- Rows II: the targets that have an encoding. -/
theorem roundTrip_truthWords {mk : Target → GR → Src2 → Instr} {d : Target} {s1 : GR} {a : Src2}
    (hrow : (mk d s1 a).row = .ofTypeII mk) (hd : d.encodableWith a = true) :
    RoundTrip (mk d s1 a) (truthWords (mk d s1 a).opcode d s1 a) := by
  cases d with
  | gr t =>
    cases a with
    | reg s2 =>
      have ht : t.toBits ≠ 0 := fun h => by
        have h0 : t = 0 := congrArg BitVec.toFin h
        simp [Target.encodableWith, h0] at hd
      exact roundTrip_registerWord (.inl ⟨_, hrow⟩) (by rw [if_neg ht]; rfl)
    | imm v => exact roundTrip_immWords (.inl ⟨_, hrow⟩) rfl
  | br b =>
    cases a with
    | reg s2 => exact roundTrip_registerWord (.inl ⟨_, hrow⟩) rfl
    | imm v => cases hd

/-- Row XV: the count is carried by the branch form. -/
theorem roundTrip_cyclesWords {n : Option Nat} (h : fitsCycles n = true) :
    RoundTrip (.xnop n) (cyclesWords 0b0101001#7 n) := by
  cases n with
  | none => exact roundTrip_free rfl (registerWord_opcode _ _ _ _ _) (by simp [Syllable.cycles])
  | some n =>
    exact roundTrip_free rfl (branchWord_opcode _ _ _ _) (by simp only [Syllable.cycles, branchWord_switch,
      branchWord_off12, cycles_ofNat h])

theorem roundTrip_words {i : Instr} (h : i.wellFormed = true) : RoundTrip i i.words := by
  cases i with
  | mpyll | mpyllu | mpylh | mpylhu | mpyhh | mpyhhu | mpyl | mpylu | mpyh | mpyhu | mpyhs
  | add | and | andc | max | maxu | min | minu | or | orc | sh1add | sh2add | sh3add | sh4add | shl | shr | shru
  | xor =>
    exact roundTrip_src2Words rfl
  | sub t a s1 => exact roundTrip_src2Words (mk := fun t s1 a => .sub t a s1) rfl
  | slct t b1 s1 a => exact roundTrip_src2Words (mk := fun t s1 a => .slct t b1 s1 a) rfl
  | slctf t b1 s1 a => exact roundTrip_src2Words (mk := fun t s1 a => .slctf t b1 s1 a) rfl
  | cmpeq | cmpge | cmpgeu | cmpgt | cmpgtu | cmple | cmpleu | cmplt | cmpltu | cmpne
  | nandl | norl | orl | andl => exact roundTrip_truthWords rfl h
  | ldw | ldh | ldhu | ldb | ldbu | stw | sth | stb | pft => exact roundTrip_immWords (.inr rfl) rfl
  | sxtb | sxth | zxtb | zxth | mov | mtb | divs | addcg => exact roundTrip_registerWord (.inr rfl) rfl
  | goto off => exact roundTrip_branchWord rfl (congrArg Instr.goto (offset_ofInt h))
  | call off => exact roundTrip_branchWord rfl (congrArg Instr.call (offset_ofInt h))
  | br b off => exact roundTrip_branchWord rfl (congrArg (Instr.br b) (offset_ofInt h))
  | brf b off => exact roundTrip_branchWord rfl (congrArg (Instr.brf b) (offset_ofInt h))
  | ret t frame => exact roundTrip_branchWord rfl (congrArg (Instr.ret t) (offset_ofInt h))
  | xnop n => exact roundTrip_cyclesWords h
  | sylFollow p => exact roundTrip_free rfl (followWord_opcode p) (congrArg Instr.sylFollow (followWord_payload p))
  | send operands => 
    cases operands with
    | none => exact roundTrip_free rfl (registerWord_opcode _ _ _ _ _) rfl
    | some x => cases h
  | recv operands => 
    cases operands with
    | none => exact roundTrip_free rfl (registerWord_opcode _ _ _ _ _) rfl
    | some x => cases h
  | _ => exact roundTrip_free rfl (registerWord_opcode _ _ _ _ _) rfl

/-- Settles O38: every operation that has an encoding survives the round trip. -/
theorem decodeOfEncodeIsTheOperation : Obligations.DecodeOfEncodeIsTheOperation := by
  unfold Obligations.DecodeOfEncodeIsTheOperation
  intro i hi
  obtain ⟨w, ws, hw, hlen, hdec⟩ := roundTrip_words hi
  exact ⟨w, ws, by simp [encode, hi, hw], fun rest => ⟨hdec rest, hlen⟩⟩

end Sys2Proof
end

section
/-! PROOFS, what an operation does, in the words of the rules: the registers it reads and the fault of reading them
(spec/10_state.md R30, spec/60_exceptions.md R222), and what its row of Table 30-C lets it change. -/

namespace Sys2Proof.Machine

open Sys2Proof.Rules

/-! ### The registers in the words of the rules -/

theorem readGr_eq_gval (s : State) (i : GR) : s.readGr i = gval s i := by
  simp [State.readGr, gval, isZeroReg_iff]

theorem src2_eq_sval (s : State) (a : Src2) : s.src2 a = sval s a := by
  cases a with
  | reg i => exact readGr_eq_gval s i
  | imm v => rfl

theorem srcReads_eq_named (a : Src2) : srcReads a = named a := by cases a <;> rfl

theorem readBr_eq (s : State) (i : BR) : s.readBr i = s.br[i] := rfl

theorem advance_eq (s : State) : s.advance = { s with pc := s.pc + 1 } := rfl

/-- `r[t] <- v` with the pc that ends the bundle. -/
theorem writeGr_jump_eq_putGr (s : State) (t : GR) (v : Word) (pc : Int) :
    (s.writeGr t v).jump pc = putGr s t v pc := by
  by_cases h : t = 0
  · subst h; rw [writeGr_zero]; rfl
  · rw [writeGr_of_ne_zero s h, putGr, if_neg h]; rfl

theorem writeGr_advance_eq_putGr (s : State) (t : GR) (v : Word) :
    (s.writeGr t v).advance = putGr s t v (s.pc + 1) := by
  rw [← writeGr_jump_eq_putGr]
  simp [advance_eq, State.jump]

theorem writeBr_advance_eq_putBr (s : State) (b : BR) (c : Bool) :
    (s.writeBr b c).advance = putBr s b c (s.pc + 1) := rfl

theorem writeTruth_advance_eq_putTruth (s : State) (d : Target) (c : Bool) :
    (s.writeTruth d c).advance = putTruth s d c := by
  cases d with
  | gr t => exact writeGr_advance_eq_putGr s t _
  | br b => rfl

/-! ### Reading registers -/

theorem grReady_iff {s : State} {i : GR} : s.grReady i = true ↔ (i ≠ 0 → s.grWritten[i] = true) := by
  simp [State.grReady, isZeroReg_iff, or_iff_not_imp_left]

theorem grReady_eq_false_iff {s : State} {i : GR} : s.grReady i = false ↔ i ≠ 0 ∧ s.grWritten[i] = false := by
  rw [← Bool.not_eq_true, grReady_iff]
  simp

theorem unwritten_eq_none_iff_readable {s : State} {grs : List GR} {brs : List BR} :
    s.unwritten grs brs = none ↔ Readable s grs brs := by
  simp only [unwritten_eq_none, grReady_iff, Readable, State.brReady]

/-- The reported BR is read, unwritten, and the lowest such. -/
theorem lowestUnwrittenBr_eq_some {s : State} {brs : List BR} {i : BR} (h : s.lowestUnwrittenBr brs = some i) :
    i ∈ brs ∧ s.brReady i = false ∧ ∀ j ∈ brs, s.brReady j = false → i ≤ j := by
  induction brs generalizing i with
  | nil => cases h
  | cons k rest ih =>
    rw [State.lowestUnwrittenBr] at h
    cases hk : s.brReady k with
    | true =>
      rw [hk, if_pos rfl] at h
      obtain ⟨hmem, hi, hle⟩ := ih h
      refine ⟨List.mem_cons_of_mem _ hmem, hi, List.forall_mem_cons.2 ⟨fun hk' => ?_, hle⟩⟩
      rw [hk] at hk'; cases hk'
    | false =>
      rw [hk, if_neg Bool.false_ne_true] at h
      cases hrest : s.lowestUnwrittenBr rest with
      | none =>
        rw [hrest] at h; cases h
        refine ⟨List.mem_cons_self, hk, List.forall_mem_cons.2 ⟨fun _ => le_rfl, fun j hj hj' => ?_⟩⟩
        rw [lowestUnwrittenBr_eq_none.1 hrest j hj] at hj'; cases hj'
      | some m =>
        rw [hrest] at h; cases h
        obtain ⟨hmem, hm, hle⟩ := ih hrest
        refine ⟨?_, ?_, List.forall_mem_cons.2 ⟨fun _ => min_le_left k m, fun j hj hj' =>
          (min_le_right k m).trans (hle j hj hj')⟩⟩
        · rcases min_choice k m with e | e <;> simp [e, hmem]
        · rcases min_choice k m with e | e <;> rw [e] <;> assumption

/-- The register the rules report is the one the model finds: the lowest is unique. -/
theorem unwritten_of_firstUnread {s : State} {grs : List GR} {brs : List BR} {p : ReadPlace}
    (h : FirstUnread s grs brs p) : s.unwritten grs brs = some p := by
  cases p with
  | gr i =>
    obtain ⟨hmem, h0, hw, hle⟩ := h
    cases hj : s.lowestUnwrittenGr grs with
    | none =>
      have := lowestUnwrittenGr_eq_none.1 hj i hmem
      rw [grReady_eq_false_iff.2 ⟨h0, hw⟩] at this; cases this
    | some j =>
      obtain ⟨hjmem, hjr, hjle⟩ := lowestUnwrittenGr_eq_some hj
      obtain ⟨hj0, hjw⟩ := grReady_eq_false_iff.1 hjr
      have : j = i := le_antisymm (hjle i hmem (grReady_eq_false_iff.2 ⟨h0, hw⟩)) (hle j hjmem hj0 hjw)
      simp [State.unwritten, hj, this]
  | br i =>
    obtain ⟨hgr, hmem, hw, hle⟩ := h
    have hnone : s.lowestUnwrittenGr grs = none :=
      lowestUnwrittenGr_eq_none.2 fun j hj => grReady_iff.2 (hgr j hj)
    cases hj : s.lowestUnwrittenBr brs with
    | none =>
      have : s.brWritten[i] = true := lowestUnwrittenBr_eq_none.1 hj i hmem
      rw [hw] at this; cases this
    | some j =>
      obtain ⟨hjmem, hjr, hjle⟩ := lowestUnwrittenBr_eq_some hj
      have : j = i := le_antisymm (hjle i hmem hw) (hle j hjmem hjr)
      simp [State.unwritten, hnone, hj, this]
  | dmem a => exact h.elim

theorem reading_of_readable {s : State} {grs : List GR} {brs : List BR} (k : Result) (h : Readable s grs brs) :
    reading grs brs s k = k := by
  rw [reading, unwritten_eq_none_iff_readable.2 h]

theorem reading_of_firstUnread {s : State} {grs : List GR} {brs : List BR} {p : ReadPlace} (k : Result)
    (h : FirstUnread s grs brs p) : reading grs brs s k = raised s (.unwrittenRead p) := by
  rw [reading, unwritten_of_firstUnread h]
  rfl

/-! ### What an operation changes -/

/-- Operation `i` has gone through, from `s` to `t`, and has changed only what its row of Table 30-C lists. (That it
keeps the BR it does not list, and data memory when it is no store, is `exec_keepsBr` and `exec_keepsDmem`.) -/
structure Completes (i : Instr) (s t : State) : Prop where
  fault : t.fault = s.fault
  imem : t.imem = s.imem
  dmemBytes : t.dmemBytes = s.dmemBytes
  gr : ∀ k : GR, k ∉ (access i).grWrites ∨ k = 0 → t.gr[k] = s.gr[k] ∧ t.grWritten[k] = s.grWritten[k]
  grWritten : ∀ k ∈ (access i).grWrites, k ≠ 0 → t.grWritten[k] = true
  brWritten : ∀ k ∈ (access i).brWrites, t.brWritten[k] = true
  pc : (access i).control = false → t.pc = s.pc + 1
  halted : i ≠ .stop → t.halted = s.halted
  draws : t.draws = s.draws ∨ isShift i = true ∧ t.draws = s.draws + 1

/-- How the outcome `r` of an operation whose registers can be read ends: it goes through, or it raises a fault of its
own, which no ALU or MUL operation does and which is never that of the bundle check. -/
def Ends (i : Instr) (s : State) (r : Result) : Prop :=
  ∃ t, r = .next t ∧
    (Completes i s t ∨ ∃ c, t = s.raise c ∧ isArithmetic i = false ∧ ∀ reason, c ≠ .badBundle reason)

section Ends

variable {i : Instr} {s : State}

theorem Completes.ends {t : State} (h : Completes i s t) : Ends i s (.next t) := ⟨t, rfl, .inl h⟩

theorem ends_raise {c : Cause} (hi : isArithmetic i = false) (hc : ∀ reason, c ≠ .badBundle reason) :
    Ends i s (.next (s.raise c)) := ⟨_, rfl, .inr ⟨c, rfl, hi, hc⟩⟩

/-- A write of one GR changes no other, and none of `$r0.0`. -/
theorem writeGr_frame {ks : List GR} {t : GR} (v : Word) (hks : ks = [t]) (k : GR) (hk : k ∉ ks ∨ k = 0) :
    (s.writeGr t v).gr[k] = s.gr[k] ∧ (s.writeGr t v).grWritten[k] = s.grWritten[k] := by
  have hk' : ¬ (k = t ∧ t ≠ 0) := by rw [hks, List.mem_singleton] at hk; grind
  simp only [writeGr_getElem, writeGr_written_getElem, if_neg hk', and_self]

theorem writeGr_marks {ks : List GR} {t : GR} (v : Word) (hks : ks = [t]) (k : GR) (hk : k ∈ ks) (h0 : k ≠ 0) :
    (s.writeGr t v).grWritten[k] = true := by
  have hkt : k = t := by simpa [hks] using hk
  rw [writeGr_written_getElem, if_pos ⟨hkt, hkt ▸ h0⟩]

theorem writeBr_marks {ks : List BR} {b : BR} (c : Bool) (hks : ks = [b]) (k : BR) (hk : k ∈ ks) :
    (s.writeBr b c).brWritten[k] = true := by
  rw [writeBr_written_getElem, if_pos (by simpa [hks] using hk)]

/-- An operation that writes one GR and goes on to the next bundle. -/
theorem completes_writeGr {t : GR} {v : Word} (hg : (access i).grWrites = [t]) (hb : (access i).brWrites = []) :
    Completes i s (s.writeGr t v).advance where
  fault := by simp
  imem := by simp
  dmemBytes := by simp
  gr := writeGr_frame v hg
  grWritten := writeGr_marks v hg
  brWritten := by simp [hb]
  pc _ := by simp
  halted _ := by simp
  draws := .inl (by simp)

/-- A shift by more than the width. -/
theorem completes_drawTo {t : GR} (hg : (access i).grWrites = [t]) (hb : (access i).brWrites = [])
    (hi : isShift i = true) : Completes i s (s.drawTo t).advance where
  fault := by simp
  imem := by simp
  dmemBytes := by simp
  gr := writeGr_frame _ hg
  grWritten := writeGr_marks _ hg
  brWritten := by simp [hb]
  pc _ := by simp
  halted _ := by simp
  draws := .inr ⟨hi, rfl⟩

/-- A control transfer that writes one GR. -/
theorem completes_writeGr_jump {t : GR} {v : Word} {p : Pc} (hg : (access i).grWrites = [t])
    (hb : (access i).brWrites = []) (hi : (access i).control = true) : Completes i s ((s.writeGr t v).jump p) where
  fault := by simp
  imem := by simp
  dmemBytes := by simp
  gr := writeGr_frame v hg
  grWritten := writeGr_marks v hg
  brWritten := by simp [hb]
  pc h := by simp [hi] at h
  halted _ := by simp
  draws := .inl (by simp)

/-- An operation that writes one BR. -/
theorem completes_writeBr {b : BR} {c : Bool} (hg : (access i).grWrites = []) (hb : (access i).brWrites = [b]) :
    Completes i s (s.writeBr b c).advance where
  fault := rfl
  imem := rfl
  dmemBytes := rfl
  gr _ _ := ⟨rfl, rfl⟩
  grWritten := by simp [hg]
  brWritten := writeBr_marks c hb
  pc _ := rfl
  halted _ := rfl
  draws := .inl rfl

/-- An operation that writes a GR and a BR. -/
theorem completes_writeGr_writeBr {t : GR} {b : BR} {v : Word} {c : Bool} (hg : (access i).grWrites = [t])
    (hb : (access i).brWrites = [b]) : Completes i s ((s.writeGr t v).writeBr b c).advance where
  fault := by simp
  imem := by simp
  dmemBytes := by simp
  gr := writeGr_frame v hg
  grWritten := writeGr_marks v hg
  brWritten := writeBr_marks c hb
  pc _ := by simp
  halted _ := by simp
  draws := .inl (by simp)

/-- An operation that writes no register: a store, a control transfer, STOP or one that changes only the pc. -/
theorem completes_of_registers_eq {pc : Pc} {m : Memory} {halted : Bool} (hg : (access i).grWrites = [])
    (hb : (access i).brWrites = []) (hpc : (access i).control = false → pc = s.pc + 1)
    (hhalted : i ≠ .stop → halted = s.halted) :
    Completes i s { s with pc := pc, dmem := m, halted := halted } where
  fault := rfl
  imem := rfl
  dmemBytes := rfl
  gr _ _ := ⟨rfl, rfl⟩
  grWritten := by simp [hg]
  brWritten := by simp [hb]
  pc := hpc
  halted := hhalted
  draws := .inl rfl

/-! ### The shapes of operations -/

theorem ends_truth {d : Target} {c : Bool} (hg : (access i).grWrites = targetGrWrites d)
    (hb : (access i).brWrites = targetBrWrites d) : Ends i s (.next (s.writeTruth d c).advance) := by
  cases d with
  | gr t => exact (completes_writeGr hg hb).ends
  | br b => exact (completes_writeBr hg hb).ends

theorem ends_shift {op : Params.Shift} {t : GR} {v x : Word} (n : Nat) (hg : (access i).grWrites = [t])
    (hb : (access i).brWrites = []) (hi : isShift i = true) (a : Word):
    Ends i s (if n ≤ 31 then .next (s.writeGr t v).advance else .next (s.shiftOut op t x a).advance) := by
  split
  · exact (completes_writeGr hg hb).ends
  · exact (completes_drawTo hg hb hi).ends

/-- The check of an access raises no fault of the bundle check. -/
theorem accessFault_ne_badBundle {a : Word} {w : Width} {c : Cause} (h : s.accessFault a w = some c)
    (reason : BundleReason) : c ≠ .badBundle reason := by
  rintro rfl
  simp only [State.accessFault] at h
  split at h
  · cases h
  · split at h <;> cases h

theorem ends_load {w : Width} {ext : Word → Word} {t : GR} {a : Word} (hg : (access i).grWrites = [t])
    (hb : (access i).brWrites = []) (hi : isArithmetic i = false) :
    Ends i s (match s.memRead a w with
      | .error c => .next (s.raise c)
      | .ok v => .next ((s.writeGr t (ext v)).advance)) := by
  cases h : s.memRead a w with
  | ok v => exact (completes_writeGr hg hb).ends
  | error c =>
    refine ends_raise hi fun reason => ?_
    unfold State.memRead at h
    split at h
    · rename_i hf
      cases h
      exact accessFault_ne_badBundle hf reason
    · split at h <;> cases h
      nofun

theorem ends_store {w : Width} {a v : Word} (hg : (access i).grWrites = []) (hb : (access i).brWrites = [])
    (hi : isArithmetic i = false) :
    Ends i s (match s.memWrite a w v with
      | .error c => .next (s.raise c)
      | .ok s' => .next s'.advance) := by
  cases h : s.memWrite a w v with
  | ok t =>
    obtain ⟨-, rfl⟩ := memWrite_eq_ok h
    exact (completes_of_registers_eq hg hb (fun _ => rfl) fun _ => rfl).ends
  | error c =>
    refine ends_raise hi fun reason => ?_
    unfold State.memWrite at h
    split at h
    · rename_i hf
      cases h
      exact accessFault_ne_badBundle hf reason
    · cases h

theorem ends_branch {taken : Bool} {p : Pc} (hg : (access i).grWrites = []) (hb : (access i).brWrites = [])
    (hi : (access i).control = true) : Ends i s (.next (if taken then s.jump p else s.advance)) := by
  cases taken <;>
    exact (completes_of_registers_eq hg hb (fun h => by simp [hi] at h) fun _ => rfl).ends

end Ends

/-- Every operation reads the registers its row of Table 30-C lists, and then ends as `Ends` says. -/
theorem exec_reads_and_ends (i : Instr) : ∃ f : State → Result,
    (∀ s, exec i s = reading (access i).grReads (access i).brReads s (f s)) ∧ ∀ s, Ends i s (f s) := by
  cases i with
  | mpyll | mpyllu | mpylh | mpylhu | mpyhh | mpyhhu | mpyl | mpylu | mpyh | mpyhu | mpyhs
  | add | and | andc | max | maxu | min | minu | or | orc | sh1add | sh2add | sh3add | sh4add | sub | xor
  | sxtb | sxth | zxtb | zxth | mov | slct | slctf =>
    exact ⟨_, fun s => rfl, fun s => (completes_writeGr rfl rfl).ends⟩
  | shl | shr | shru => exact ⟨_, fun s => rfl, fun s => ends_shift _ rfl rfl rfl _⟩
  | divs | addcg => exact ⟨_, fun s => rfl, fun s => (completes_writeGr_writeBr rfl rfl).ends⟩
  | cmpeq | cmpge | cmpgeu | cmpgt | cmpgtu | cmple | cmpleu | cmplt | cmpltu | cmpne
  | nandl | norl | orl | andl => exact ⟨_, fun s => rfl, fun s => ends_truth rfl rfl⟩
  | mtb => exact ⟨_, fun s => rfl, fun s => (completes_writeBr rfl rfl).ends⟩
  | ldw | ldh | ldhu | ldb | ldbu => exact ⟨_, fun s => rfl, fun s => ends_load rfl rfl rfl⟩
  | stw | sth | stb => exact ⟨_, fun s => rfl, fun s => ends_store rfl rfl rfl⟩
  | br | brf => exact ⟨_, fun s => rfl, fun s => ends_branch rfl rfl rfl⟩
  | call | icall | ret => exact ⟨_, fun s => rfl, fun s => (completes_writeGr_jump rfl rfl rfl).ends⟩
  | goto | igoto =>
    exact ⟨_, fun s => rfl, fun s => (completes_of_registers_eq rfl rfl (fun h => by cases h) fun _ => rfl).ends⟩
  | nop | xnop | pft =>
    exact ⟨_, fun s => rfl, fun s => (completes_of_registers_eq rfl rfl (fun _ => rfl) fun _ => rfl).ends⟩
  | stop =>
    exact ⟨_, fun s => rfl, fun s => (completes_of_registers_eq rfl rfl (fun _ => rfl) (absurd rfl)).ends⟩
  -- What is left only raises a fault: RFI, SEND, RECV, SYL_FOLLOW and the reserved codes.
  | _ => exact ⟨_, fun s => rfl, fun s => ends_raise rfl nofun⟩

end Sys2Proof.Machine
end

section
/-! PROOFS, steps and runs: what a step can do, and the invariants of the machine (spec/30_encoding.md R81, R82;
spec/60_exceptions.md R220, R229). A step raises a fault on the state before it, or commits the outcomes that the
operations of its bundle have one by one (`commitAll`); every invariant follows from these two cases. -/

namespace Sys2Proof.Machine

open Sys2Proof.Rules

/-! ### The outcome of one operation -/

/-- The next state an operation answers; every operation answers one (`exec_eq_outcome`). -/
def outcome (i : Instr) (s : State) : State :=
  match exec i s with
  | .next t => t
  | .fault _ => s
  | .refused _ => s

theorem exec_cases {i : Instr} {s t : State} (h : exec i s = .next t) :
    Completes i s t ∨ ∃ c, t = s.raise c ∧ ∀ reason, c ≠ .badBundle reason := by
  obtain ⟨f, hexec, hends⟩ := exec_reads_and_ends i
  rw [hexec] at h
  rcases reading_next h with ⟨p, rfl⟩ | hf
  · exact .inr ⟨_, rfl, nofun⟩
  · obtain ⟨u, hu, hcases⟩ := hends s
    cases hf.symm.trans hu
    exact hcases.imp_right fun ⟨c, hc, _, hreason⟩ => ⟨c, hc, hreason⟩

theorem exec_eq_outcome (i : Instr) (s : State) : exec i s = .next (outcome i s) := by
  obtain ⟨f, hexec, hends⟩ := exec_reads_and_ends i
  have hnext : ∃ t, exec i s = .next t := by
    rw [hexec]
    rcases reading_cases (access i).grReads (access i).brReads s (f s) with ⟨-, hf⟩ | ⟨p, -, hp⟩
    · obtain ⟨u, hu, -⟩ := hends s
      exact ⟨u, hf.trans hu⟩
    · exact ⟨_, hp⟩
  obtain ⟨t, ht⟩ := hnext
  rw [outcome, ht]

theorem outcome_eq {i : Instr} {s t : State} (h : exec i s = .next t) : outcome i s = t := by
  rw [outcome, h]

/-- With no fault in its outcome an operation has gone through. -/
theorem completes_of_fault_eq_none {i : Instr} {s : State} (h : (outcome i s).fault = none) :
    Completes i s (outcome i s) := by
  refine (exec_cases (exec_eq_outcome i s)).resolve_right ?_
  rintro ⟨c, hc, -⟩
  rw [hc] at h
  cases h

/-! ### Evaluation of a bundle -/

/-- No operation of the bundle raises a fault from `s`. -/
def Quiet (s : State) (is : List Instr) : Prop := ∀ i ∈ is, (outcome i s).fault = none

/-- The results of the operations, each evaluated from `s`, performed on `acc` in slot order. -/
def commitAll (s : State) (is : List Instr) (acc : State) : State :=
  is.foldl (fun acc i => commit i s (outcome i s) acc) acc

@[simp] theorem commitAll_nil (s acc : State) : commitAll s [] acc = acc := rfl
@[simp] theorem commitAll_cons (s acc : State) (i : Instr) (is : List Instr) :
    commitAll s (i :: is) acc = commitAll s is (commit i s (outcome i s) acc) := rfl
theorem commitAll_append (s acc : State) (is js : List Instr) :
    commitAll s (is ++ js) acc = commitAll s js (commitAll s is acc) := List.foldl_append

/-- What every commit keeps holds after all of them. -/
theorem commitAll_induction {P : State → Prop} {s : State} {is : List Instr} {acc : State} (hacc : P acc)
    (hcommit : ∀ i ∈ is, ∀ acc, P acc → P (commit i s (outcome i s) acc)) : P (commitAll s is acc) := by
  induction is generalizing acc with
  | nil => exact hacc
  | cons i is ih =>
    obtain ⟨hi, his⟩ := List.forall_mem_cons.1 hcommit
    exact ih (hi acc hacc) his

theorem runSlots_append {s : State} {pre : List Instr} (rest : List Instr) (acc : State) (h : Quiet s pre) :
    runSlots s (pre ++ rest) acc = runSlots s rest (commitAll s pre acc) := by
  induction pre generalizing acc with
  | nil => rfl
  | cons i pre ih =>
    obtain ⟨hi, hpre⟩ := List.forall_mem_cons.1 h
    rw [List.cons_append, runSlots_cons, exec_eq_outcome]
    simp only [hi]
    exact ih _ hpre

theorem runSlots_of_quiet {s : State} {is : List Instr} (acc : State) (h : Quiet s is) :
    runSlots s is acc = .next (commitAll s is acc) := by
  rw [← List.append_nil is, runSlots_append [] acc h, List.append_nil]
  rfl

/-- The lowest slot that raises decides. -/
theorem runSlots_of_fault {s : State} {pre : List Instr} {i : Instr} {c : Cause} (post : List Instr) (acc : State)
    (hpre : Quiet s pre) (hi : (outcome i s).fault = some c) :
    runSlots s (pre ++ i :: post) acc = .next (s.raise c) := by
  rw [runSlots_append _ acc hpre, runSlots_cons, exec_eq_outcome]
  simp only [hi]

/-- A bundle is quiet, or it has a lowest slot that raises. -/
theorem quiet_or_fault (s : State) (is : List Instr) :
    Quiet s is ∨ ∃ pre i post c, is = pre ++ i :: post ∧ Quiet s pre ∧ (outcome i s).fault = some c := by
  induction is with
  | nil => exact .inl nofun
  | cons i is ih =>
    cases hi : (outcome i s).fault with
    | some c => exact .inr ⟨[], i, is, c, rfl, nofun, hi⟩
    | none =>
      rcases ih with hq | ⟨pre, j, post, c, rfl, hpre, hj⟩
      · exact .inl (List.forall_mem_cons.2 ⟨hi, hq⟩)
      · exact .inr ⟨i :: pre, j, post, c, rfl, List.forall_mem_cons.2 ⟨hi, hpre⟩, hj⟩

/-- Everything a bundle that passes the check can do. -/
theorem runSlots_cases (s : State) (is : List Instr) (acc : State) :
    (Quiet s is ∧ runSlots s is acc = .next (commitAll s is acc)) ∨
    ∃ i ∈ is, ∃ c, (outcome i s).fault = some c ∧ runSlots s is acc = .next (s.raise c) := by
  rcases quiet_or_fault s is with hq | ⟨pre, i, post, c, rfl, hpre, hi⟩
  · exact .inl ⟨hq, runSlots_of_quiet acc hq⟩
  · exact .inr ⟨i, by simp, c, hi, runSlots_of_fault post acc hpre hi⟩

/-! ### Steps -/

/-- A machine that has not stopped executes a bundle. -/
theorem step_of_running {s : State} (hh : s.halted = false) (hf : s.fault = none) : step s = s.cycle := by
  simp [step, hh, hf]

theorem step_of_halted {s : State} (h : s.halted = true) : step s = .fault .halted := by simp [step, h]

theorem step_of_fault {s : State} {c : Cause} (hh : s.halted = false) (h : s.fault = some c) :
    step s = .fault (.faulted c) := by simp [step, hh, h]

theorem fetch_of_fetches {s : State} {b : Bundle} (h : Fetches s b) : s.fetch = .ok b := by
  obtain ⟨-, -, hpc, hb⟩ := h
  rw [fetch_eq, if_neg (not_lt.2 hpc), hb]

theorem step_of_decode_error {s : State} {b : Bundle} {c : Cause} (h : Fetches s b) (hb : decodeBundle b = .error c) :
    step s = .next (s.raise c) := by
  simp only [step_of_running h.1 h.2.1, State.cycle, fetch_of_fetches h, hb]

theorem step_of_decode_ok {s : State} {b : Bundle} {is : List Instr} (h : Fetches s b) (hb : decodeBundle b = .ok is) :
    step s = runBundle is s := by
  simp only [step_of_running h.1 h.2.1, State.cycle, fetch_of_fetches h, hb]

/-- Everything a bundle can do. -/
theorem runBundle_cases (is : List Instr) (s : State) :
    (∃ c, runBundle is s = .next (s.raise c)) ∨
    bundleReason is = none ∧ Quiet s is ∧ runBundle is s = .next (commitAll s is s.advance) := by
  cases h : bundleReason is with
  | some r => exact .inl ⟨_, runBundle_of_reason h⟩
  | none =>
    rw [runBundle_of_none h]
    rcases runSlots_cases s is s.advance with ⟨hq, hrun⟩ | ⟨i, -, c, -, hrun⟩
    · exact .inr ⟨rfl, hq, hrun⟩
    · exact .inl ⟨c, hrun⟩

/-- Everything a cycle can do. -/
theorem cycle_cases (s : State) :
    (∃ c, s.cycle = .next (s.raise c)) ∨ ∃ is, Quiet s is ∧ s.cycle = .next (commitAll s is s.advance) := by
  unfold State.cycle
  cases s.fetch with
  | error c => exact .inl ⟨c, rfl⟩
  | ok b =>
    cases hb : decodeBundle b with
    | error c => exact .inl ⟨c, by simp only [hb]⟩
    | ok is =>
      simp only [hb]
      exact (runBundle_cases is s).imp_right fun ⟨_, hq, hrun⟩ => ⟨is, hq, hrun⟩

/-- Everything a step that answers a next state can do. -/
theorem step_cases {s t : State} (h : step s = .next t) :
    s.halted = false ∧ s.fault = none ∧
      ((∃ c, t = s.raise c) ∨ ∃ is, Quiet s is ∧ t = commitAll s is s.advance) := by
  cases hh : s.halted with
  | true => rw [step_of_halted hh] at h; cases h
  | false =>
    cases hf : s.fault with
    | some c => rw [step_of_fault hh hf] at h; cases h
    | none =>
      rw [step_of_running hh hf] at h
      refine ⟨rfl, rfl, ?_⟩
      rcases cycle_cases s with ⟨c, hc⟩ | ⟨is, hq, hc⟩
      · cases h.symm.trans hc
        exact .inl ⟨c, rfl⟩
      · cases h.symm.trans hc
        exact .inr ⟨is, hq, rfl⟩

theorem commitAll_keeps (s : State) (is : List Instr) (acc : State) :
    (commitAll s is acc).imem = acc.imem ∧ (commitAll s is acc).dmemBytes = acc.dmemBytes ∧
    (commitAll s is acc).fault = acc.fault :=
  commitAll_induction (P := fun u => u.imem = acc.imem ∧ u.dmemBytes = acc.dmemBytes ∧ u.fault = acc.fault)
    ⟨rfl, rfl, rfl⟩ fun i _ u hu => by simpa using hu

/-! ### The invariant -/

/-- A store that raises nothing lies in data memory (20_memory.md R41). -/
theorem store_inside {i : Instr} {s : State} {x : StoreAt} (hx : (access i).store = some x)
    (hq : (outcome i s).fault = none) : (s.ea x.base x.offset).toNat + x.width.bytes ≤ s.dmemBytes := by
  obtain ⟨s2, hexec⟩ := exec_eq_storeOp hx
  have h := exec_eq_outcome i s
  rw [hexec] at h
  rcases storeOp_next h with ⟨c, hc⟩ | ⟨m, hm, -⟩
  · rw [hc] at hq; cases hq
  · obtain ⟨-, hin⟩ := accessFault_eq_none.1 (memWrite_eq_ok hm).1
    have hle := (of_decide_eq_true hin).2
    simpa [Params.dmemBase] using hle

/-- The bytes an operation's results put in data memory: none, or at most those of its access. -/
theorem commit_dmem (i : Instr) (s t acc : State) :
    (commit i s t acc).dmem = acc.dmem ∨ ∃ x bs, (access i).store = some x ∧ bs.length ≤ x.width.bytes ∧
      (commit i s t acc).dmem = acc.dmem.writeBytes (s.ea x.base x.offset).toNat bs := by
  cases hx : (access i).store with
  | none => exact .inl (commit_dmem_of_none s t acc hx)
  | some x =>
    have hdmem := results_dmem i s t acc
    rw [hx] at hdmem
    refine .inr ⟨x, _, rfl, ?_, hdmem⟩
    cases hbs : t.dmem.readBytes (s.ea x.base x.offset).toNat x.width.bytes with
    | none => simp
    | some bs => simpa using (Memory.readBytes_eq_some.1 hbs).1.le

theorem raise_inv {s : State} (c : Cause) (hs : s.Inv) (hh : s.halted = false) : (s.raise c).Inv := by
  obtain ⟨hwf, hrange, hzero, -⟩ := hs
  exact ⟨hwf, hrange, hzero, fun h => by simp [hh] at h⟩

/-- The results of one operation keep the invariant on the way. -/
theorem commit_inv {i : Instr} {s acc : State} (hq : (outcome i s).fault = none)
    (hacc : acc.Inv ∧ acc.dmemBytes = s.dmemBytes ∧ acc.fault = none) :
    (commit i s (outcome i s) acc).Inv := by
  obtain ⟨⟨hwf, hrange, hzero, -⟩, hbytes, hfault⟩ := hacc
  refine ⟨?_, ?_, (commit_gr i s _ acc 0).trans ((if_neg fun h => h.2 rfl).trans hzero), fun _ => by simp [hfault]⟩
  · rcases commit_dmem i s (outcome i s) acc with h | ⟨x, bs, -, -, h⟩ <;> rw [h]
    · exact hwf
    · exact Memory.writeBytes_wf _ _ hwf
  · rw [commit_dmemBytes]
    rcases commit_dmem i s (outcome i s) acc with h | ⟨x, bs, hx, hlen, h⟩ <;> rw [h]
    · exact hrange
    · intro c hc
      rcases Memory.mem_writeBytes hc with hc | hc
      · have := store_inside hx hq
        simp only [Params.dmemBase, hbytes]
        omega
      · exact hrange c hc

/-- Settles O55: a raised fault changes no field the invariant is about but `fault`, and each operation's results keep
it. -/
theorem everyStepKeepsTheInvariant : Obligations.EveryStepKeepsTheInvariant := by
  unfold Obligations.EveryStepKeepsTheInvariant
  intro s t hs h
  obtain ⟨hh, hf, ⟨c, rfl⟩ | ⟨is, hq, rfl⟩⟩ := step_cases h
  · exact raise_inv c hs hh
  · refine (commitAll_induction (P := fun u => u.Inv ∧ u.dmemBytes = s.dmemBytes ∧ u.fault = none)
      (acc := s.advance) ⟨hs, rfl, hf⟩ fun i hi u hu => ⟨commit_inv (hq i hi) hu, ?_⟩).1
    simpa using hu.2

/-- Settles O56. -/
theorem resetSatisfiesTheInvariant : Obligations.ResetSatisfiesTheInvariant := by
  unfold Obligations.ResetSatisfiesTheInvariant State.Inv
  simp [State.reset, State.bareReset, Memory.wf]

/-! ### Runs -/

theorem step_of_run_succ {k : Nat} {s t : State} (h : Host.Core.run Sys2Proof.core (k + 1) s = .next t) :
    ∃ u, step s = .next u ∧ Host.Core.run Sys2Proof.core k u = .next t := by
  simp only [Host.Core.run] at h
  split at h
  · rename_i u hu
    exact ⟨u, hu, h⟩
  · cases h
  · cases h

/-- What every step keeps holds of every state reached. -/
theorem reaches_induction {P : State → Prop} (hstep : ∀ s t, P s → step s = .next t → P t) {s t : State} (hs : P s)
    (h : Reaches s t) : P t := by
  obtain ⟨k, hk⟩ := h
  induction k generalizing s with
  | zero => cases hk; exact hs
  | succ k ih =>
    obtain ⟨u, hstep', hrun⟩ := step_of_run_succ hk
    exact ih (hstep s u hs hstep') hrun

theorem step_keeps_imem {s t : State} (h : step s = .next t) : t.imem = s.imem ∧ t.dmemBytes = s.dmemBytes := by
  obtain ⟨-, -, ⟨c, rfl⟩ | ⟨is, -, rfl⟩⟩ := step_cases h
  · exact ⟨rfl, rfl⟩
  · obtain ⟨himem, hbytes, -⟩ := commitAll_keeps s is s.advance
    exact ⟨himem, hbytes⟩

/-- Settles O53: no step changes either, and so no run. -/
theorem instructionMemoryNeverChanges : Obligations.InstructionMemoryNeverChanges := by
  unfold Obligations.InstructionMemoryNeverChanges
  intro s t h
  refine reaches_induction (P := fun u => u.imem = s.imem ∧ u.dmemBytes = s.dmemBytes) ?_ ⟨rfl, rfl⟩ h
  rintro u v ⟨himem, hbytes⟩ hstep
  obtain ⟨himem', hbytes'⟩ := step_keeps_imem hstep
  exact ⟨himem'.trans himem, hbytes'.trans hbytes⟩

/-- The written flags grow, and cover every register whose value differs from that of `s`. -/
def WrittenSince (s u : State) : Prop :=
  (∀ k : GR, s.grWritten[k] = true → u.grWritten[k] = true) ∧
  (∀ k : BR, s.brWritten[k] = true → u.brWritten[k] = true) ∧
  (∀ k : GR, u.gr[k] ≠ s.gr[k] → u.grWritten[k] = true) ∧
  ∀ k : BR, u.br[k] ≠ s.br[k] → u.brWritten[k] = true

theorem commit_writtenSince (i : Instr) (s : State) {acc : State} (h : WrittenSince s acc) :
    WrittenSince s (commit i s (outcome i s) acc) := by
  obtain ⟨hgrw, hbrw, hgr, hbr⟩ := h
  refine ⟨fun k hk => ?_, fun k hk => ?_, fun k hk => ?_, fun k hk => ?_⟩
  · rw [commit_grWritten]; split
    · rfl
    · exact hgrw k hk
  · rw [commit_brWritten]; split
    · rfl
    · exact hbrw k hk
  · rw [commit_gr] at hk; rw [commit_grWritten]; split
    · rfl
    · rename_i hnot; rw [if_neg hnot] at hk; exact hgr k hk
  · rw [commit_br] at hk; rw [commit_brWritten]; split
    · rfl
    · rename_i hnot; rw [if_neg hnot] at hk; exact hbr k hk

/-- Settles O54: a register's value and its flag are written together. -/
theorem writtenRegistersStayWritten : Obligations.WrittenRegistersStayWritten := by
  unfold Obligations.WrittenRegistersStayWritten
  intro s t h
  have hself : WrittenSince s s := ⟨fun _ h => h, fun _ h => h, fun _ h => absurd rfl h, fun _ h => absurd rfl h⟩
  obtain ⟨-, -, ⟨c, rfl⟩ | ⟨is, -, rfl⟩⟩ := step_cases h
  · exact hself
  · exact commitAll_induction (P := WrittenSince s) hself fun i _ acc hacc => commit_writtenSince i s hacc

/-- A machine that has not stopped has a next state. -/
theorem exists_step_of_running {s : State} (hh : s.halted = false) (hf : s.fault = none) :
    ∃ t, step s = .next t := by
  rw [step_of_running hh hf]
  rcases cycle_cases s with ⟨c, h⟩ | ⟨is, -, h⟩ <;> exact ⟨_, h⟩

/-- Settles O59: the invariant excludes a halted and faulted state, and `halted` and `fault` decide the rest. -/
theorem runsEndInExactlyOneOfThreeWays : Obligations.RunsEndInExactlyOneOfThreeWays := by
  unfold Obligations.RunsEndInExactlyOneOfThreeWays
  intro s t hs h
  obtain ⟨-, -, -, hexclude⟩ := reaches_induction everyStepKeepsTheInvariant hs h
  cases hh : t.halted with
  | true =>
    refine .inl ⟨⟨hh, hexclude hh⟩, fun u hu => ?_, hexclude hh⟩
    rw [step_of_halted hh] at hu
    cases hu
  | false =>
    cases hf : t.fault with
    | some c =>
      refine .inr (.inl ⟨fun hnone => Option.some_ne_none c (hf.symm.trans hnone), rfl, fun u hu => ?_⟩)
      rw [step_of_fault hh hf] at hu
      cases hu
    | none => exact .inr (.inr ⟨rfl, rfl, exists_step_of_running hh hf⟩)

/-- Settles O45: of the two cases of a step only the raised fault leaves one. -/
theorem faultIsPreciseAndEndsTheRun : Obligations.FaultIsPreciseAndEndsTheRun := by
  unfold Obligations.FaultIsPreciseAndEndsTheRun
  intro s t c h hc
  obtain ⟨hh, hf, ⟨c', rfl⟩ | ⟨is, -, rfl⟩⟩ := step_cases h
  · cases hc
    exact ⟨rfl, step_of_fault hh rfl⟩
  · rw [(commitAll_keeps s is s.advance).2.2, State.advance_fault, hf] at hc
    cases hc

end Sys2Proof.Machine
end

section
/-! PROOFS, the bundle (spec/30_encoding.md R80 to R82): the check in the words of the rules, and what the operations of
a bundle leave together. -/

namespace Sys2Proof.Machine

open Sys2Proof.Rules

/-! ### The check -/

theorem control_eq_isControl (i : Instr) : (access i).control = isControl i := by cases i <;> rfl
theorem memory_eq_isMemory (i : Instr) : (access i).memory = isMemory i := by cases i <;> rfl

theorem grWrites_length_le_one (i : Instr) : (access i).grWrites.length ≤ 1 := by
  cases i with
  | cmpeq d | cmpge d | cmpgeu d | cmpgt d | cmpgtu d | cmple d | cmpleu d | cmplt d | cmpltu d | cmpne d
  | nandl d | norl d | orl d | andl d => cases d <;> simp [access, targetGrWrites]
  | _ => simp [access]

theorem brWrites_length_le_one (i : Instr) : (access i).brWrites.length ≤ 1 := by
  cases i with
  | cmpeq d | cmpge d | cmpgeu d | cmpgt d | cmpgtu d | cmple d | cmpleu d | cmplt d | cmpltu d | cmpne d
  | nandl d | norl d | orl d | andl d => cases d <;> simp [access, targetBrWrites]
  | _ => simp [access]

theorem nodup_of_length_le_one {α : Type} {l : List α} (h : l.length ≤ 1) : l.Nodup := by
  match l, h with
  | [], _ => exact List.nodup_nil
  | [a], _ => exact List.nodup_singleton a

/-- Two operations that may stand in one bundle by R80 c: they write no GR other than `$r0.0` and no BR in common. -/
def WritesApart (i j : Instr) : Prop :=
  (∀ k : GR, k ≠ 0 → k ∈ (access i).grWrites → k ∉ (access j).grWrites) ∧
  ∀ k : BR, k ∈ (access i).brWrites → k ∉ (access j).brWrites

theorem not_writesConflict_iff {is : List Instr} : ¬ WritesConflict is ↔ is.Pairwise WritesApart := by
  rw [List.pairwise_iff_getElem]
  constructor
  · intro h p q hp hq hpq
    refine ⟨fun k h0 hi hj => h ⟨p, q, _, _, hpq, List.getElem?_eq_getElem hp, List.getElem?_eq_getElem hq, ?_⟩,
      fun k hi hj => h ⟨p, q, _, _, hpq, List.getElem?_eq_getElem hp, List.getElem?_eq_getElem hq, ?_⟩⟩
    · exact .inl ⟨k, h0, hi, hj⟩
    · exact .inr ⟨k, hi, hj⟩
  · rintro h ⟨p, q, i, j, hpq, hp, hq, hwrites⟩
    obtain ⟨hp', rfl⟩ := List.getElem?_eq_some_iff.1 hp
    obtain ⟨hq', rfl⟩ := List.getElem?_eq_some_iff.1 hq
    obtain ⟨hgr, hbr⟩ := h p q hp' hq' hpq
    rcases hwrites with ⟨k, h0, hi, hj⟩ | ⟨k, hi, hj⟩
    · exact hgr k h0 hi hj
    · exact hbr k hi hj

theorem grTargets_nodup_iff {is : List Instr} : (grTargets is).Nodup ↔
    is.Pairwise fun i j => ∀ k : GR, k ≠ 0 → k ∈ (access i).grWrites → k ∉ (access j).grWrites := by
  rw [grTargets, List.filter_flatMap, List.nodup_flatMap,
    and_iff_right fun i _ => (nodup_of_length_le_one (grWrites_length_le_one i)).filter _]
  refine List.Pairwise.iff fun i j => ?_
  simp only [Function.onFun, List.Disjoint, List.mem_filter, Bool.not_eq_true', ← Bool.not_eq_true, isZeroReg_iff]
  exact ⟨fun h k h0 hi hj => h ⟨hi, h0⟩ ⟨hj, h0⟩, fun h k hi hj => h k hi.2 hi.1 hj.1⟩

theorem brTargets_nodup_iff {is : List Instr} : (brTargets is).Nodup ↔
    is.Pairwise fun i j => ∀ k : BR, k ∈ (access i).brWrites → k ∉ (access j).brWrites := by
  rw [brTargets, List.nodup_flatMap, and_iff_right fun i _ => nodup_of_length_le_one (brWrites_length_le_one i)]
  rfl

theorem targets_nodup_iff {is : List Instr} :
    (grTargets is).Nodup ∧ (brTargets is).Nodup ↔ ¬ WritesConflict is := by
  rw [grTargets_nodup_iff, brTargets_nodup_iff, not_writesConflict_iff, ← List.pairwise_and_iff]
  rfl

/-- The check in the words of the rules. -/
theorem bundleReason_eq (is : List Instr) : bundleReason is =
    if 1 < is.countP isControl then some .twoBranches
    else if 1 < is.countP isMemory then some .twoMemOps
    else if (grTargets is).Nodup ∧ (brTargets is).Nodup then none
    else some .writeConflict := by
  simp only [bundleReason, control_eq_isControl, memory_eq_isMemory]
  rfl

theorem bundleReason_eq_none {is : List Instr} (hc : is.countP isControl ≤ 1) (hm : is.countP isMemory ≤ 1)
    (hw : ¬ WritesConflict is) : bundleReason is = none := by
  rw [bundleReason_eq, if_neg hc.not_gt, if_neg hm.not_gt, if_pos (targets_nodup_iff.2 hw)]

/-- No operation raises a fault of the bundle check. -/
theorem outcome_fault_ne_badBundle {i : Instr} {s : State} {c : Cause} (hs : s.fault = none)
    (h : (outcome i s).fault = some c) (reason : BundleReason) : c ≠ .badBundle reason := by
  rcases exec_cases (exec_eq_outcome i s) with hdone | ⟨c', hc', hreason⟩
  · rw [hdone.fault, hs] at h
    cases h
  · rw [hc'] at h
    cases h
    exact hreason reason

/-- Settles O43: the model's check is the rules' check, and no operation raises one of its faults. -/
theorem bundleCheckRule : Obligations.BundleCheckRule := by
  unfold Obligations.BundleCheckRule
  intro is s hs
  refine ⟨fun hc => ?_, fun hc hm => ?_, fun hc hm hw => ?_, fun hc hm hw reason h => ?_⟩
  · exact runBundle_of_reason (by rw [bundleReason_eq, if_pos hc])
  · exact runBundle_of_reason (by rw [bundleReason_eq, if_neg hc.not_gt, if_pos hm])
  · exact runBundle_of_reason (by
      rw [bundleReason_eq, if_neg hc.not_gt, if_neg hm.not_gt, if_neg (mt targets_nodup_iff.1 (not_not_intro hw))])
  · rw [runBundle_of_none (bundleReason_eq_none hc hm hw)] at h
    rcases runSlots_cases s is s.advance with ⟨-, hrun⟩ | ⟨i, -, c, hc, hrun⟩
    · have hfault := congrArg State.fault (Host.Outcome.next.inj (hrun.symm.trans h))
      rw [(commitAll_keeps s is s.advance).2.2, State.advance_fault, hs] at hfault
      cases hfault
    · have hfault := congrArg State.fault (Host.Outcome.next.inj (hrun.symm.trans h))
      exact outcome_fault_ne_badBundle hs hc reason (Option.some.inj hfault)

/-! ### The results of one operation on the way -/

theorem State.ext_of_fields {s t : State} (hgr : ∀ k : GR, s.gr[k] = t.gr[k])
    (hgrWritten : ∀ k : GR, s.grWritten[k] = t.grWritten[k]) (hbr : ∀ k : BR, s.br[k] = t.br[k])
    (hbrWritten : ∀ k : BR, s.brWritten[k] = t.brWritten[k]) (hpc : s.pc = t.pc) (himem : s.imem = t.imem)
    (hbytes : s.dmemBytes = t.dmemBytes) (hdmem : s.dmem = t.dmem) (hhalted : s.halted = t.halted)
    (hfault : s.fault = t.fault) (hdraws : s.draws = t.draws) : s = t := by
  have hgr' : s.gr = t.gr := Vector.ext fun k hk => hgr ⟨k, hk⟩
  have hgrWritten' : s.grWritten = t.grWritten := Vector.ext fun k hk => hgrWritten ⟨k, hk⟩
  have hbr' : s.br = t.br := Vector.ext fun k hk => hbr ⟨k, hk⟩
  have hbrWritten' : s.brWritten = t.brWritten := Vector.ext fun k hk => hbrWritten ⟨k, hk⟩
  have hflight : s.inFlight = t.inFlight := inFlight_eq _ _
  cases s
  cases t
  simp only [State.mk.injEq]
  exact ⟨hgr', hgrWritten', hbr', hbrWritten', hpc, himem, hbytes, hdmem, hhalted, hfault, hflight, hdraws⟩

section Outcome

variable {i : Instr} {s : State}

theorem outcome_br_of_not_mem {k : BR} (hk : k ∉ (access i).brWrites) :
    (outcome i s).br[k] = s.br[k] ∧ (outcome i s).brWritten[k] = s.brWritten[k] :=
  exec_keepsBr (mt (writesBr_iff i k).1 hk) s _ (exec_eq_outcome i s)

theorem outcome_dmem_of_none (h : (access i).store = none) : (outcome i s).dmem = s.dmem :=
  exec_keepsDmem h s _ (exec_eq_outcome i s)

/-- On data memory as before the bundle, the results leave what the outcome holds. -/
theorem commit_dmem_of_eq {acc : State} (hq : (outcome i s).fault = none) (hacc : acc.dmem = s.dmem) :
    (commit i s (outcome i s) acc).dmem = (outcome i s).dmem := by
  cases hx : (access i).store with
  | none => rw [commit_dmem_of_none s _ acc hx, hacc, outcome_dmem_of_none hx]
  | some x =>
    obtain ⟨s2, hexec⟩ := exec_eq_storeOp hx
    have h := exec_eq_outcome i s
    rw [hexec] at h
    exact commit_dmem_of_storeOp hx h hq hacc

/-- The results of an operation, performed on the way to the next bundle, are its outcome. -/
theorem commit_advance (hh : s.halted = false) (hq : (outcome i s).fault = none) :
    commit i s (outcome i s) s.advance = outcome i s := by
  have hdone := completes_of_fault_eq_none hq
  refine State.ext_of_fields (fun k => ?_) (fun k => ?_) (fun k => ?_) (fun k => ?_) ?_ ?_ ?_ ?_ ?_ ?_ ?_
  · rw [commit_gr]
    split
    · rfl
    · exact (hdone.gr k (by tauto)).1.symm
  · rw [commit_grWritten]
    split
    · rename_i hk
      exact (hdone.grWritten k hk.1 hk.2).symm
    · exact (hdone.gr k (by tauto)).2.symm
  · rw [commit_br]
    split
    · rfl
    · rename_i hk
      exact (outcome_br_of_not_mem (s := s) hk).1.symm
  · rw [commit_brWritten]
    split
    · rename_i hk
      exact (hdone.brWritten k hk).symm
    · rename_i hk
      exact (outcome_br_of_not_mem (s := s) hk).2.symm
  · cases hc : (access i).control with
    | true => exact commit_pc_of_control hc rfl
    | false => exact (commit_pc_of_not_control hc).trans (hdone.pc hc).symm
  · rw [commit_imem, hdone.imem]; rfl
  · rw [commit_dmemBytes, hdone.dmemBytes]; rfl
  · exact commit_dmem_of_eq hq rfl
  · simp [hh]
  · rw [commit_fault, hdone.fault]; rfl
  · rcases hdone.draws with h | ⟨-, h⟩ <;> simp [h]

end Outcome

theorem outcome_nop (s : State) : outcome .nop s = s.advance := rfl

/-- NOPs change nothing of what the operations before them have done. -/
theorem commitAll_nops {s acc : State} {nops : List Instr} (hnops : ∀ j ∈ nops, j = .nop) (hh : s.halted = false)
    (hdraws : s.draws ≤ acc.draws) : commitAll s nops acc = acc := by
  refine commitAll_induction (P := fun u => u = acc) rfl ?_
  rintro j hj u rfl
  cases hnops j hj
  refine State.ext_of_fields (fun k => ?_) (fun k => ?_) (fun k => ?_) (fun k => ?_) ?_ ?_ ?_ ?_ ?_ ?_ ?_
  · rw [commit_gr]; exact if_neg fun h => by simp [access] at h
  · rw [commit_grWritten]; exact if_neg fun h => by simp [access] at h
  · rw [commit_br]; exact if_neg fun h => by simp [access] at h
  · rw [commit_brWritten]; exact if_neg fun h => by simp [access] at h
  · exact commit_pc_of_not_control rfl
  · exact commit_imem ..
  · exact commit_dmemBytes ..
  · exact commit_dmem_of_none _ _ _ rfl
  · simp [outcome_nop, hh]
  · exact commit_fault ..
  · simpa [outcome_nop] using hdraws

/-- An operation followed by NOPs passes the check. -/
theorem bundleReason_nops (i : Instr) {nops : List Instr} (hnops : ∀ j ∈ nops, j = .nop) :
    bundleReason (i :: nops) = none := by
  have hcount (p : Instr → Bool) (hp : p .nop = false) : (i :: nops).countP p ≤ 1 := by
    have h0 : nops.countP p = 0 := List.countP_eq_zero.2 fun j hj => by simp [hnops j hj, hp]
    rw [List.countP_cons, h0]
    split <;> simp
  refine bundleReason_eq_none (hcount _ rfl) (hcount _ rfl) (not_writesConflict_iff.2 ?_)
  have hapart : ∀ j, ∀ n ∈ nops, WritesApart j n := fun j n hn => by
    rw [hnops n hn]
    exact ⟨fun _ _ _ => by simp [access], fun _ _ => by simp [access]⟩
  exact List.pairwise_cons.2 ⟨fun n hn => hapart i n hn, List.pairwise_of_forall_mem_list fun j _ n hn => hapart j n hn⟩

/-- Settles O42: the operation's results on the way to the next bundle are its outcome, and NOPs add nothing. -/
theorem stepRunsTheDecodedOperation : Obligations.StepRunsTheDecodedOperation := by
  unfold Obligations.StepRunsTheDecodedOperation
  intro s b i nops hb hdec hnops
  have hh : s.halted = false := hb.1
  have hs : s.fault = none := hb.2.1
  rw [step_of_decode_ok hb hdec, runBundle_of_none (bundleReason_nops i hnops), exec_eq_outcome]
  cases hi : (outcome i s).fault with
  | some c =>
    refine (runSlots_of_fault (pre := []) nops _ nofun hi).trans ?_
    rcases exec_cases (exec_eq_outcome i s) with hdone | ⟨c', hc', -⟩
    · rw [hdone.fault, hs] at hi
      cases hi
    · rw [hc'] at hi ⊢
      cases hi
      rfl
  | none =>
    have hquiet : Quiet s (i :: nops) := List.forall_mem_cons.2 ⟨hi, fun j hj => by
      rw [hnops j hj, outcome_nop]
      exact hs⟩
    have hdraws : s.draws ≤ (outcome i s).draws := by
      rcases (completes_of_fault_eq_none hi).draws with h | ⟨-, h⟩ <;> omega
    rw [runSlots_of_quiet _ hquiet, commitAll_cons, commit_advance hh hi, commitAll_nops hnops hh hdraws]

end Sys2Proof.Machine
end

section
/-! PROOFS, a bundle reads all, then writes all (spec/30_encoding.md R82). A part of the state that at most one
operation of the bundle writes is, after the bundle, as that operation leaves it, and as before when none writes it
(`WrittenBy`). -/

namespace Sys2Proof.Machine

open Sys2Proof.Rules

/-! ### Parts of the state that one operation writes -/

/-- The operations `W` write the part `f` of the state and no other does. -/
structure WrittenBy {α : Type} (s : State) (f : State → α) (W : Instr → Prop) : Prop where
  frame : ∀ i, (outcome i s).fault = none → ¬ W i → f (outcome i s) = f s.advance
  miss : ∀ i acc, (outcome i s).fault = none → ¬ W i → f (commit i s (outcome i s) acc) = f acc
  hit : ∀ i acc, (outcome i s).fault = none → W i → f acc = f s.advance →
    f (commit i s (outcome i s) acc) = f (outcome i s)

section WrittenBy

variable {α : Type} {s : State} {f : State → α} {W : Instr → Prop}

theorem WrittenBy.commitAll_of_none (h : WrittenBy s f W) {is : List Instr} (hq : Quiet s is) (hW : ∀ i ∈ is, ¬ W i)
    (acc : State) : f (commitAll s is acc) = f acc :=
  commitAll_induction (P := fun u => f u = f acc) rfl fun i hi u hu => (h.miss i u (hq i hi) (hW i hi)).trans hu

/-- After a bundle the part is as the one operation that writes it leaves it, or as before. -/
theorem WrittenBy.commitAll_cases (h : WrittenBy s f W) {is : List Instr} (hq : Quiet s is)
    (hone : is.Pairwise fun i j => ¬ (W i ∧ W j)) :
    ((∀ i ∈ is, ¬ W i) ∧ f (commitAll s is s.advance) = f s.advance) ∨
    ∃ i ∈ is, (∀ j ∈ is, W j → j = i) ∧ f (commitAll s is s.advance) = f (outcome i s) := by
  by_cases hW : ∃ i ∈ is, W i
  · obtain ⟨i, hi, hWi⟩ := hW
    obtain ⟨pre, post, rfl⟩ := List.append_of_mem hi
    obtain ⟨-, hcons, hcross⟩ := List.pairwise_append.1 hone
    have hpre : ∀ j ∈ pre, ¬ W j := fun j hj hWj => hcross j hj i List.mem_cons_self ⟨hWj, hWi⟩
    have hpost : ∀ j ∈ post, ¬ W j := fun j hj hWj => (List.pairwise_cons.1 hcons).1 j hj ⟨hWi, hWj⟩
    have hqpre : Quiet s pre := fun j hj => hq j (List.mem_append_left _ hj)
    have hqpost : Quiet s post := fun j hj => hq j (List.mem_append_right _ (List.mem_cons_of_mem _ hj))
    refine .inr ⟨i, hi, fun j hj hWj => ?_, ?_⟩
    · rcases List.mem_append.1 hj with hj | hj
      · exact absurd hWj (hpre j hj)
      · exact (List.mem_cons.1 hj).resolve_right fun hj => hpost j hj hWj
    · rw [commitAll_append, commitAll_cons, h.commitAll_of_none hqpost hpost]
      exact h.hit i _ (hq i hi) hWi (h.commitAll_of_none hqpre hpre _)
  · have hnone : ∀ i ∈ is, ¬ W i := fun i hi hWi => hW ⟨i, hi, hWi⟩
    exact .inl ⟨hnone, h.commitAll_of_none hq hnone _⟩

/-- What an operation has changed stays as it leaves it. -/
theorem WrittenBy.commitAll_of_changed (h : WrittenBy s f W) {is : List Instr} (hq : Quiet s is)
    (hone : is.Pairwise fun i j => ¬ (W i ∧ W j)) {i : Instr} (hi : i ∈ is) (hne : f (outcome i s) ≠ f s.advance) :
    f (commitAll s is s.advance) = f (outcome i s) := by
  have hWi : W i := by_contra fun hWi => hne (h.frame i (hq i hi) hWi)
  rcases h.commitAll_cases hq hone with ⟨hnone, -⟩ | ⟨j, -, hunique, hj⟩
  · exact absurd hWi (hnone i hi)
  · rw [hj, hunique i hi hWi]

/-- What no operation has changed stays as it was. -/
theorem WrittenBy.commitAll_of_unchanged (h : WrittenBy s f W) {is : List Instr} (hq : Quiet s is)
    (hone : is.Pairwise fun i j => ¬ (W i ∧ W j)) (heq : ∀ i ∈ is, f (outcome i s) = f s.advance) :
    f (commitAll s is s.advance) = f s.advance := by
  rcases h.commitAll_cases hq hone with ⟨-, hnone⟩ | ⟨j, hj, -, hval⟩
  · exact hnone
  · exact hval.trans (heq j hj)

end WrittenBy

/-! ### The parts -/

section Parts

variable (s : State)

theorem gr_writtenBy (k : GR) : WrittenBy s (fun u => u.gr[k]) fun i => k ∈ (access i).grWrites ∧ k ≠ 0 where
  frame i hq hW := ((completes_of_fault_eq_none hq).gr k (by tauto)).1
  miss i acc _ hW := by rw [commit_gr, if_neg hW]
  hit i acc _ hW _ := by rw [commit_gr, if_pos hW]

theorem grWritten_writtenBy (k : GR) :
    WrittenBy s (fun u => u.grWritten[k]) fun i => k ∈ (access i).grWrites ∧ k ≠ 0 where
  frame i hq hW := ((completes_of_fault_eq_none hq).gr k (by tauto)).2
  miss i acc _ hW := by rw [commit_grWritten, if_neg hW]
  hit i acc hq hW _ := by
    rw [commit_grWritten, if_pos hW, (completes_of_fault_eq_none hq).grWritten k hW.1 hW.2]

theorem br_writtenBy (k : BR) : WrittenBy s (fun u => u.br[k]) fun i => k ∈ (access i).brWrites where
  frame _ _ hW := (outcome_br_of_not_mem (s := s) hW).1
  miss i acc _ hW := by rw [commit_br, if_neg hW]
  hit i acc _ hW _ := by rw [commit_br, if_pos hW]

theorem brWritten_writtenBy (k : BR) :
    WrittenBy s (fun u => u.brWritten[k]) fun i => k ∈ (access i).brWrites where
  frame _ _ hW := (outcome_br_of_not_mem (s := s) hW).2
  miss i acc _ hW := by rw [commit_brWritten, if_neg hW]
  hit i acc hq hW _ := by rw [commit_brWritten, if_pos hW, (completes_of_fault_eq_none hq).brWritten k hW]

theorem store_eq_none_of_not_memory {i : Instr} (h : ¬ isMemory i = true) : (access i).store = none := by
  cases i with
  | stw | sth | stb => exact absurd rfl h
  | _ => rfl

theorem dmem_writtenBy : WrittenBy s (fun u => u.dmem) fun i => isMemory i = true where
  frame _ _ hW := outcome_dmem_of_none (store_eq_none_of_not_memory hW)
  miss _ acc _ hW := commit_dmem_of_none s _ acc (store_eq_none_of_not_memory hW)
  hit _ _ hq _ hacc := commit_dmem_of_eq hq hacc

theorem pc_writtenBy : WrittenBy s (fun u => u.pc) fun i => isControl i = true where
  frame i hq hW := (completes_of_fault_eq_none hq).pc (by simpa [control_eq_isControl] using hW)
  miss i acc _ hW := commit_pc_of_not_control (by simpa [control_eq_isControl] using hW)
  hit i acc _ hW hacc := commit_pc_of_control (by simpa [control_eq_isControl] using hW) hacc

end Parts

/-! ### The parts that several operations may write alike -/

theorem commitAll_halted (s acc : State) (is : List Instr) :
    (commitAll s is acc).halted = (acc.halted || is.any fun i => (outcome i s).halted) := by
  induction is generalizing acc with
  | nil => simp
  | cons i is ih => rw [commitAll_cons, ih, commit_halted, List.any_cons, Bool.or_assoc]

/-- Draws are counted once for all that draw in a bundle: each draws one, and the larger count stays. -/
theorem commitAll_draws {s : State} {is : List Instr} (hq : Quiet s is) :
    (∀ i ∈ is, (outcome i s).draws ≠ s.draws → (commitAll s is s.advance).draws = (outcome i s).draws) ∧
    ((∀ i ∈ is, (outcome i s).draws = s.draws) → (commitAll s is s.advance).draws = s.draws) := by
  have hdraws : ∀ i ∈ is, (outcome i s).draws = s.draws ∨ (outcome i s).draws = s.draws + 1 := fun i hi =>
    (completes_of_fault_eq_none (hq i hi)).draws.imp_right And.right
  have hle : ∀ acc : State, acc.draws ≤ (commitAll s is acc).draws := fun acc =>
    commitAll_induction (P := fun u => acc.draws ≤ u.draws) le_rfl fun i _ u hu => hu.trans (le_max_left _ _)
  have hbound : (commitAll s is s.advance).draws ≤ s.draws + 1 :=
    commitAll_induction (P := fun u => u.draws ≤ s.draws + 1) (Nat.le_succ _) fun i hi u hu =>
      max_le hu (by have := hdraws i hi; omega)
  refine ⟨fun i hi hne => ?_, fun heq => ?_⟩
  · have hi' : (outcome i s).draws ≤ (commitAll s is s.advance).draws := by
      obtain ⟨pre, post, rfl⟩ := List.append_of_mem hi
      rw [commitAll_append, commitAll_cons]
      exact (le_max_right _ _).trans
        (commitAll_induction (P := fun u => (commit i s (outcome i s) (commitAll s pre s.advance)).draws ≤ u.draws)
          le_rfl fun j _ u hu => hu.trans (le_max_left _ _))
    have := hdraws i hi
    omega
  · exact commitAll_induction (P := fun u => u.draws = s.draws) rfl fun i hi u hu => by
      rw [commit_draws, hu, heq i hi, max_self]

theorem pairwise_of_countP_le_one {p : Instr → Bool} {is : List Instr} (h : is.countP p ≤ 1) :
    is.Pairwise fun i j => ¬ (p i = true ∧ p j = true) := by
  induction is with
  | nil => exact List.Pairwise.nil
  | cons i is ih =>
    rw [List.countP_cons] at h
    refine List.pairwise_cons.2 ⟨fun j hj ⟨hpi, hpj⟩ => ?_, ih (by omega)⟩
    have hpos : 0 < is.countP p := List.countP_pos_iff.2 ⟨j, hj, hpj⟩
    rw [if_pos hpi] at h
    omega

/-- Settles O44: each part of the state goes by `WrittenBy`, `halted` and the count of draws by their own lemmas. -/
theorem bundleReadsAllThenWritesAll : Obligations.BundleReadsAllThenWritesAll := by
  unfold Obligations.BundleReadsAllThenWritesAll
  intro s b is hb hdec hcontrol hmemory hwrites hexec
  have hq : Quiet s is := fun i hi => by
    obtain ⟨u, hu, hfault⟩ := hexec i hi
    rwa [outcome_eq hu]
  have hmem := pairwise_of_countP_le_one hmemory
  have hctl := pairwise_of_countP_le_one hcontrol
  have hapart := not_writesConflict_iff.1 hwrites
  have hgr (k : GR) : is.Pairwise fun i j =>
      ¬ ((k ∈ (access i).grWrites ∧ k ≠ 0) ∧ k ∈ (access j).grWrites ∧ k ≠ 0) :=
    hapart.imp fun h ⟨⟨hi, h0⟩, hj, _⟩ => h.1 k h0 hi hj
  have hbr (k : BR) : is.Pairwise fun i j => ¬ (k ∈ (access i).brWrites ∧ k ∈ (access j).brWrites) :=
    hapart.imp fun h ⟨hi, hj⟩ => h.2 k hi hj
  obtain ⟨himem, hbytes, hfault⟩ := commitAll_keeps s is s.advance
  obtain ⟨hdraws, hdraws'⟩ := commitAll_draws hq
  refine ⟨commitAll s is s.advance, ?_, hfault.trans hb.2.1, himem, hbytes, fun i hi u hu => ?_, fun k h => ?_,
    fun k h => ?_, fun k h => ?_, fun k h => ?_, fun h => ?_, fun h => ?_, fun h => ?_, fun h => ?_⟩
  · rw [step_of_decode_ok hb hdec, runBundle_of_none (bundleReason_eq_none hcontrol hmemory hwrites),
      runSlots_of_quiet _ hq]
  · cases outcome_eq hu
    exact ⟨fun k => (gr_writtenBy s k).commitAll_of_changed hq (hgr k) hi,
      fun k => (grWritten_writtenBy s k).commitAll_of_changed hq (hgr k) hi,
      fun k => (br_writtenBy s k).commitAll_of_changed hq (hbr k) hi,
      fun k => (brWritten_writtenBy s k).commitAll_of_changed hq (hbr k) hi,
      (dmem_writtenBy s).commitAll_of_changed hq hmem hi,
      (pc_writtenBy s).commitAll_of_changed hq hctl hi,
      fun hhalted => by
        rw [commitAll_halted, Bool.or_eq_true]
        exact .inr (List.any_eq_true.2 ⟨i, hi, hhalted⟩),
      hdraws i hi⟩
  · exact (gr_writtenBy s k).commitAll_of_unchanged hq (hgr k) fun i hi => h i hi _ (exec_eq_outcome i s)
  · exact (grWritten_writtenBy s k).commitAll_of_unchanged hq (hgr k) fun i hi => h i hi _ (exec_eq_outcome i s)
  · exact (br_writtenBy s k).commitAll_of_unchanged hq (hbr k) fun i hi => h i hi _ (exec_eq_outcome i s)
  · exact (brWritten_writtenBy s k).commitAll_of_unchanged hq (hbr k) fun i hi => h i hi _ (exec_eq_outcome i s)
  · exact (dmem_writtenBy s).commitAll_of_unchanged hq hmem fun i hi => h i hi _ (exec_eq_outcome i s)
  · exact (pc_writtenBy s).commitAll_of_unchanged hq hctl fun i hi => h i hi _ (exec_eq_outcome i s)
  · rw [commitAll_halted, State.advance_halted, hb.1, Bool.false_or, List.any_eq_false]
    exact fun i hi => by rw [h i hi _ (exec_eq_outcome i s)]; exact Bool.false_ne_true
  · exact hdraws' fun i hi => h i hi _ (exec_eq_outcome i s)

end Sys2Proof.Machine
end

section
/-! PROOFS, what decodes (spec/30_encoding.md R66 to R75, spec/60_exceptions.md R225 to R228): every syllable decodes by
the row of the operation that has its opcode, so what holds of the five kinds of rows holds of every syllable. -/

namespace Sys2Proof

open Sys2Proof.Machine Sys2Proof.Rules

/-! ### Opcode and switch in the words of the rules -/

theorem opcodeBits_eq (w : Syllable) : opcodeBits w = w.opcode := by
  ext i hi
  simp [opcodeBits, Syllable.opcode]

theorem switchBits_eq (w : Syllable) : switchBits w = w.immSw := by
  ext i hi
  simp [switchBits, Syllable.immSw]

/-- The switch by its two bits. -/
theorem switch_eq_iff (w : Syllable) :
    (w.switch = .register ↔ switchBits w = 0b00) ∧ (w.switch = .short ↔ switchBits w = 0b01) ∧
    (w.switch = .branch ↔ switchBits w = 0b10) ∧ (w.switch = .long ↔ switchBits w = 0b11) := by
  rw [switchBits_eq]
  unfold Syllable.switch
  generalize w.immSw = sw
  revert sw
  decide

/-! ### The kind of a row, by the opcode -/

/-- The opcodes whose type admits these switches (Table 30-C). -/
def Row.kindOf (op : BitVec 7) : Row → Prop
  | .source _ _ => takesSource op = true
  | .offset _ => takesSource op = false ∧ takesOffset op = true
  | .label _ => takesSource op = false ∧ takesOffset op = false ∧ takesLabel op = true
  | .registers _ => takesSource op = false ∧ takesOffset op = false ∧ takesLabel op = false ∧ takesRegisters op = true
  | .free _ => takesSource op = false ∧ takesOffset op = false ∧ takesLabel op = false ∧ takesRegisters op = false

theorem row_kindOf (i : Instr) : i.row.kindOf i.opcode := by
  cases i with
  | slct t b1 | slctf t b1 | divs t b b1 | addcg t b b1 =>
    revert b1
    simp only [Instr.row, Row.ofTypeI, Row.kindOf, Instr.opcode]
    decide
  | _ =>
    simp only [Instr.row, Row.ofTypeI, Row.ofTypeII, Row.ofTypeX, Row.ofTypeXI, Row.kindOf, Instr.opcode]
    decide

/-- The operations a row gives have opcode `op` and an encoding. -/
def Row.Yields (op : BitVec 7) : Row → Prop
  | .source reg imm =>
    (∀ d a c b, (reg d a c b).opcode = op ∧ (reg d a c b).wellFormed = true) ∧
    ∀ d a v, (imm d a v).opcode = op ∧ (imm d a v).wellFormed = true
  | .offset imm => ∀ d a v, (imm d a v).opcode = op ∧ (imm d a v).wellFormed = true
  | .registers reg => ∀ d a c b, (reg d a c b).opcode = op ∧ (reg d a c b).wellFormed = true
  | .label mk => ∀ d o b, (mk d o b).opcode = op ∧ (mk d o b).wellFormed = true
  | .free mk => ∀ n p, fitsCycles n = true → (mk n p).opcode = op ∧ (mk n p).wellFormed = true

theorem fitsOff12_toInt (o : BitVec 12) : fitsOff12 o.toInt = true := by
  have h1 := BitVec.le_toInt o
  have h2 := BitVec.toInt_lt (x := o)
  simp only [fitsOff12, decide_eq_true_eq]
  norm_num at *
  omega

/-- Rows II: the targets the fields give have an encoding. -/
theorem yields_ofTypeII {mk : Target → GR → Src2 → Instr} {op : BitVec 7} (hop : ∀ d s1 a, (mk d s1 a).opcode = op)
    (hwf : ∀ d s1 a, (mk d s1 a).wellFormed = d.encodableWith a) : (Row.ofTypeII mk).Yields op := by
  refine ⟨fun d a c b => ⟨hop _ _ _, ?_⟩, fun d a v => ⟨hop _ _ _, hwf _ _ _⟩⟩
  rw [hwf]
  split
  · rfl
  · rename_i hd
    have hd' : d.toFin ≠ 0 := fun h => hd (BitVec.eq_of_toFin_eq h)
    simpa [Target.encodableWith] using hd'

theorem row_yields (i : Instr) : i.row.Yields i.opcode := by
  cases i with
  | mpyll | mpyllu | mpylh | mpylhu | mpyhh | mpyhhu | mpyl | mpylu | mpyh | mpyhu | mpyhs
  | add | and | andc | max | maxu | min | minu | or | orc | sh1add | sh2add | sh3add | sh4add | shl | shr | shru | xor
  | sub | slct | slctf => exact ⟨fun _ _ _ _ => ⟨rfl, rfl⟩, fun _ _ _ => ⟨rfl, rfl⟩⟩
  | cmpeq | cmpge | cmpgeu | cmpgt | cmpgtu | cmple | cmpleu | cmplt | cmpltu | cmpne
  | nandl | norl | orl | andl => exact yields_ofTypeII (fun _ _ _ => rfl) fun _ _ _ => rfl
  | ldw | ldh | ldhu | ldb | ldbu | stw | sth | stb | pft => exact fun _ _ _ => ⟨rfl, rfl⟩
  | sxtb | sxth | zxtb | zxth | mov | mtb | divs | addcg => exact fun _ _ _ _ => ⟨rfl, rfl⟩
  | goto | call | br | brf | ret => exact fun _ o _ => ⟨rfl, fitsOff12_toInt o⟩
  | xnop => exact fun _ _ h => ⟨rfl, h⟩
  | _ => exact fun _ _ _ => ⟨rfl, rfl⟩

/-! ### What a syllable decodes to -/

theorem fitsCycles_cycles (w : Syllable) : fitsCycles w.cycles = true := by
  unfold Syllable.cycles
  cases w.switch <;> simp only [fitsCycles, decide_eq_true_eq]
  exact w.off12.isLt

theorem immOperand_ok {w : Syllable} {rest : List Syllable} {k : Word → Instr} {i : Instr} {next : Bool}
    (h : immOperand w rest k = .ok (i, next)) : ∃ v, i = k v := by
  unfold immOperand at h
  cases hsw : w.switch <;> simp only [hsw] at h
  case register | branch => cases h
  case short => cases h; exact ⟨_, rfl⟩
  case long =>
    cases hv : w.longImm rest with
    | error e => simp only [hv] at h; cases h
    | ok v => simp only [hv] at h; cases h; exact ⟨v, rfl⟩

/-- What a row gives has the opcode of the row and an encoding. -/
theorem Row.decode_ok {w : Syllable} {rest : List Syllable} {r : Row} {op : BitVec 7} {i : Instr} {next : Bool}
    (hr : r.Yields op) (h : r.decode w rest = .ok (i, next)) : i.opcode = op ∧ i.wellFormed = true := by
  cases r with
  | source reg imm =>
    cases hsw : w.switch <;> simp only [Row.decode, hsw] at h
    case register => cases h; exact hr.1 _ _ _ _
    case branch => cases h
    case short | long => obtain ⟨v, rfl⟩ := immOperand_ok h; exact hr.2 _ _ _
  | offset imm => obtain ⟨v, rfl⟩ := immOperand_ok h; exact hr _ _ _
  | registers reg =>
    cases hsw : w.switch <;> simp only [Row.decode, registerOnly, hsw] at h <;> cases h
    exact hr _ _ _ _
  | label mk =>
    cases hsw : w.switch <;> simp only [Row.decode, branchOnly, hsw] at h <;> cases h
    exact hr _ _ _
  | free mk => cases h; exact hr _ _ (fitsCycles_cycles w)

/-- Every syllable decodes by a row of its opcode. -/
theorem exists_row (w : Syllable) : ∃ r : Row, r.kindOf w.opcode ∧ r.Yields w.opcode ∧
    ∀ rest, decodeSyllable w rest = r.decode w rest := by
  obtain ⟨i, hi⟩ := exists_opcode w.opcode
  exact ⟨i.row, hi ▸ row_kindOf i, hi ▸ row_yields i, fun rest => decodeSyllable_eq_row rest hi.symm⟩

theorem decodeSyllable_ok {w : Syllable} {rest : List Syllable} {i : Instr} {next : Bool}
    (h : decodeSyllable w rest = .ok (i, next)) : i.opcode = w.opcode ∧ i.wellFormed = true := by
  obtain ⟨r, -, hr, hdec⟩ := exists_row w
  exact Row.decode_ok hr ((hdec rest).symm.trans h)

/-- Settles O39. -/
theorem decodedOperationsAreWellFormed : Obligations.DecodedOperationsAreWellFormed := by
  unfold Obligations.DecodedOperationsAreWellFormed
  exact fun w rest i next h => (decodeSyllable_ok h).2

end Sys2Proof
end

section
/-! PROOFS, what the decoder refuses (spec/30_encoding.md R67, R69, R73, R75; spec/60_exceptions.md R225, R227, R228),
and the opcode map (R74). -/

namespace Sys2Proof

open Sys2Proof.Machine Sys2Proof.Rules

/-! ### What a row refuses -/

/-- A long immediate with its SYL_FOLLOW. -/
theorem longImm_cons {f : Syllable} (w : Syllable) (rest : List Syllable) (hf : f.opcode = followCode) :
    w.longImm (f :: rest) = .ok (f.payload ++ w.imm9) := if_pos hf

/-- A long immediate without it. -/
theorem longImm_alone (w : Syllable) {rest : List Syllable} (h : ∀ f ∈ rest.head?, f.opcode ≠ followCode) :
    w.longImm rest = .error .badLongImm := by
  cases rest with
  | nil => rfl
  | cons f rest => exact if_neg (h f rfl)

theorem longImm_ne {w : Syllable} {rest : List Syllable} {e : Reject} (h : w.longImm rest = .error e) :
    e = .badLongImm := by
  by_cases hrest : ∀ f ∈ rest.head?, f.opcode ≠ followCode
  · exact (Except.error.inj ((longImm_alone w hrest).symm.trans h)).symm
  · cases rest with
    | nil => simp at hrest
    | cons f rest =>
      have hf : f.opcode = followCode := by simpa using hrest
      rw [longImm_cons w rest hf] at h
      cases h

section Row

variable {w : Syllable} {rest : List Syllable} {r : Row}

theorem immOperand_error {k : Word → Instr} {e : Reject} (h : immOperand w rest k = .error e) :
    (e = .badForm ∧ (w.switch = .register ∨ w.switch = .branch)) ∨ e = .badLongImm := by
  unfold immOperand at h
  cases hsw : w.switch <;> simp only [hsw] at h
  case register | branch => cases h; simp
  case short => cases h
  case long =>
    cases hv : w.longImm rest with
    | error e' => simp only [hv] at h; cases h; exact .inr (longImm_ne hv)
    | ok v => simp only [hv] at h; cases h

/-- A row refuses a syllable for a switch that it does not admit or for a lone long immediate, and for nothing else. -/
theorem Row.decode_error {e : Reject} (hr : r.kindOf w.opcode) (h : r.decode w rest = .error e) :
    (e = .badForm ∧ switchBits w ∉ admitted w.opcode) ∨ e = .badLongImm := by
  obtain ⟨hreg, hshort, hbranch, hlong⟩ := switch_eq_iff w
  cases r with
  | source reg imm =>
    cases hsw : w.switch <;> simp only [Row.decode, hsw] at h
    case register => cases h
    case branch => cases h; simp [admitted, show takesSource w.opcode = true from hr, hbranch.1 hsw]
    case short | long =>
      rcases immOperand_error h with ⟨-, h' | h'⟩ | he
      · rw [hsw] at h'; cases h'
      · rw [hsw] at h'; cases h'
      · exact .inr he
  | offset imm =>
    obtain ⟨h1, h2⟩ := hr
    refine (immOperand_error h).imp_left fun ⟨he, hsw⟩ => ⟨he, ?_⟩
    rcases hsw with hsw | hsw
    · simp [admitted, h1, h2, hreg.1 hsw]
    · simp [admitted, h1, h2, hbranch.1 hsw]
  | registers reg =>
    obtain ⟨h1, h2, h3, h4⟩ := hr
    cases hsw : w.switch <;> simp only [Row.decode, registerOnly, hsw] at h <;> cases h
    · simp [admitted, h1, h2, h3, h4, hshort.1 hsw]
    · simp [admitted, h1, h2, h3, h4, hbranch.1 hsw]
    · simp [admitted, h1, h2, h3, h4, hlong.1 hsw]
  | label mk =>
    obtain ⟨h1, h2, h3⟩ := hr
    cases hsw : w.switch <;> simp only [Row.decode, branchOnly, hsw] at h <;> cases h
    · simp [admitted, h1, h2, h3, hreg.1 hsw]
    · simp [admitted, h1, h2, h3, hshort.1 hsw]
    · simp [admitted, h1, h2, h3, hlong.1 hsw]
  | free mk => cases h

/-- A switch that is not admitted is refused. -/
theorem Row.decode_of_not_admitted (hr : r.kindOf w.opcode) (h : switchBits w ∉ admitted w.opcode) :
    r.decode w rest = .error .badForm := by
  obtain ⟨hreg, hshort, hbranch, hlong⟩ := switch_eq_iff w
  cases r with
  | source reg imm =>
    have h1 : takesSource w.opcode = true := hr
    cases hsw : w.switch <;> simp only [Row.decode, hsw]
    · simp [admitted, h1, hreg.1 hsw] at h
    · simp [admitted, h1, hshort.1 hsw] at h
    · simp [admitted, h1, hlong.1 hsw] at h
  | offset imm =>
    obtain ⟨h1, h2⟩ := hr
    cases hsw : w.switch <;> simp only [Row.decode, immOperand, hsw]
    · simp [admitted, h1, h2, hshort.1 hsw] at h
    · simp [admitted, h1, h2, hlong.1 hsw] at h
  | registers reg =>
    obtain ⟨h1, h2, h3, h4⟩ := hr
    cases hsw : w.switch <;> simp only [Row.decode, registerOnly, hsw]
    simp [admitted, h1, h2, h3, h4, hreg.1 hsw] at h
  | label mk =>
    obtain ⟨h1, h2, h3⟩ := hr
    cases hsw : w.switch <;> simp only [Row.decode, branchOnly, hsw]
    simp [admitted, h1, h2, h3, hbranch.1 hsw] at h
  | free mk =>
    obtain ⟨h1, h2, h3, h4⟩ := hr
    cases hsw : w.switch
    · simp [admitted, h1, h2, h3, h4, hreg.1 hsw] at h
    · simp [admitted, h1, h2, h3, h4, hshort.1 hsw] at h
    · simp [admitted, h1, h2, h3, h4, hbranch.1 hsw] at h
    · simp [admitted, h1, h2, h3, h4, hlong.1 hsw] at h

/-- The long form of a row that has one is read from the long immediate alone. -/
theorem Row.decode_long (hr : r.kindOf w.opcode)
    (hop : takesSource w.opcode = true ∨ takesOffset w.opcode = true) (hsw : w.switch = .long) :
    ∃ k : Word → Instr, ∀ rest, r.decode w rest = (w.longImm rest).map fun v => (k v, true) := by
  have himm (k : Word → Instr) (rest : List Syllable) :
      immOperand w rest k = (w.longImm rest).map fun v => (k v, true) := by
    simp only [immOperand, hsw]
    cases w.longImm rest <;> rfl
  cases r with
  | source reg imm => exact ⟨_, fun rest => by simp only [Row.decode, hsw]; exact himm _ rest⟩
  | offset imm => exact ⟨_, himm _⟩
  | registers reg => obtain ⟨h1, h2, -⟩ := hr; simp [h1, h2] at hop
  | label mk => obtain ⟨h1, h2, -⟩ := hr; simp [h1, h2] at hop
  | free mk => obtain ⟨h1, h2, -⟩ := hr; simp [h1, h2] at hop

end Row

theorem decodeSyllable_error {w : Syllable} {rest : List Syllable} {e : Reject} (h : decodeSyllable w rest = .error e) :
    (e = .badForm ∧ switchBits w ∉ admitted w.opcode) ∨ e = .badLongImm := by
  obtain ⟨r, hr, -, hdec⟩ := exists_row w
  exact Row.decode_error hr ((hdec rest).symm.trans h)

/-! ### The slots of a bundle -/

theorem isReserved_iff (op : BitVec 7) : isReserved op = true ↔ op ∈ reservedCodes :=
  List.contains_iff_mem (as := reservedCodes)

/-- The decode faults of an opcode in the words of the rules (R73). -/
theorem opcodeFault_eq (slot : Nat) (w : Syllable) : opcodeFault slot w =
    if opcodeBits w ∈ reservedCodes then some (.illegalOpcode slot (opcodeBits w))
    else if opcodeBits w = followCode then some (.orphanFollow slot)
    else none := by
  simp only [opcodeFault, opcodeBits_eq, layout_opcode, rop_eq, Option.isNone_none, Bool.and_true, isReserved_iff]
  rfl

theorem opcodeFault_eq_none {slot : Nat} {w : Syllable} (hr : opcodeBits w ∉ reservedCodes)
    (hf : opcodeBits w ≠ followCode) : opcodeFault slot w = none := by
  rw [opcodeFault_eq, if_neg hr, if_neg hf]

/-- The slot that a decode fault names. -/
def slotOf : Cause → Nat
  | .illegalOpcode slot _ | .orphanFollow slot | .badLongImm slot | .badForm slot _ _ => slot
  | _ => 0

theorem slotOf_rejectCause (slot : Nat) (w : Syllable) (e : Reject) : slotOf (rejectCause slot w e) = slot := by
  cases e <;> rfl

theorem slotOf_opcodeFault {slot : Nat} {w : Syllable} {c : Cause} (h : opcodeFault slot w = some c) :
    slotOf c = slot := by
  rw [opcodeFault_eq] at h
  split at h
  · cases h; rfl
  · split at h <;> cases h
    rfl

section Slots

variable {slot : Nat} {w : Syllable} {rest : List Syllable}

theorem decodeSlots_of_opcodeFault {c : Cause} (h : opcodeFault slot w = some c) :
    decodeSlots slot false (w :: rest) = .error c := by
  simp [decodeSlots, h]

theorem decodeSlots_of_error {e : Reject} (hop : opcodeFault slot w = none) (h : decodeSyllable w rest = .error e) :
    decodeSlots slot false (w :: rest) = .error (rejectCause slot w e) := by
  simp [decodeSlots, hop, h]

/-- A slot that decodes hands over to the next. -/
theorem decodeSlots_of_ok {i : Instr} {next : Bool} (hop : opcodeFault slot w = none)
    (h : decodeSyllable w rest = .ok (i, next)) :
    decodeSlots slot false (w :: rest) = (decodeSlots (slot + 1) next rest).map (i :: ·) := by
  simp only [decodeSlots, hop, layout_decode, h, if_neg Bool.false_ne_true]
  cases decodeSlots (slot + 1) next rest <;> rfl

theorem decodeSlots_consumed : decodeSlots slot true (w :: rest) = decodeSlots (slot + 1) false rest := by
  simp [decodeSlots]

/-- A decode fault comes from this slot, for its opcode or for its form, or from a later slot. -/
theorem decodeSlots_error_cases {c : Cause} (h : decodeSlots slot false (w :: rest) = .error c) :
    opcodeFault slot w = some c ∨
    (∃ e, decodeSyllable w rest = .error e ∧ c = rejectCause slot w e) ∨
    ∃ next, decodeSlots (slot + 1) next rest = .error c := by
  cases hop : opcodeFault slot w with
  | some c' =>
    rw [decodeSlots_of_opcodeFault hop] at h
    exact .inl (congrArg some (Except.error.inj h))
  | none =>
    cases hdec : decodeSyllable w rest with
    | error e =>
      rw [decodeSlots_of_error hop hdec] at h
      exact .inr (.inl ⟨e, rfl, (Except.error.inj h).symm⟩)
    | ok p =>
      rw [decodeSlots_of_ok hop hdec] at h
      cases hrest : decodeSlots (slot + 1) p.2 rest with
      | error c' =>
        rw [hrest] at h
        exact .inr (.inr ⟨p.2, hrest.trans (congrArg _ (Except.error.inj h))⟩)
      | ok is => rw [hrest] at h; cases h

end Slots

/-- A decode fault names a slot that has been looked at. -/
theorem le_slotOf {slot : Nat} {consumed : Bool} {ws : List Syllable} {c : Cause}
    (h : decodeSlots slot consumed ws = .error c) : slot ≤ slotOf c := by
  induction ws generalizing slot consumed with
  | nil => cases h
  | cons w rest ih =>
    cases consumed with
    | true =>
      rw [decodeSlots_consumed] at h
      exact (Nat.le_succ slot).trans (ih h)
    | false =>
      rcases decodeSlots_error_cases h with hop | ⟨e, -, rfl⟩ | ⟨next, hnext⟩
      · exact (slotOf_opcodeFault hop).ge
      · exact (slotOf_rejectCause slot w e).ge
      · exact (Nat.le_succ slot).trans (ih hnext)

/-- Settles O36. -/
theorem switchNotAdmittedIsBadForm : Obligations.SwitchNotAdmittedIsBadForm := by
  unfold Obligations.SwitchNotAdmittedIsBadForm
  refine ⟨fun slot w rest hr hf hsw => ?_, fun slot w rest hsw op sw h => ?_⟩
  · obtain ⟨r, hkind, -, hdec⟩ := exists_row w
    rw [opcodeBits_eq] at hsw
    rw [decodeSlots_of_error (opcodeFault_eq_none hr hf) ((hdec rest).trans (Row.decode_of_not_admitted hkind hsw)),
      opcodeBits_eq, switchBits_eq]
    rfl
  · rcases decodeSlots_error_cases h with hop | ⟨e, he, hc⟩ | ⟨next, hnext⟩
    · rw [opcodeFault_eq] at hop
      split at hop
      · cases hop
      · split at hop <;> cases hop
    · rcases decodeSyllable_error he with ⟨-, hnot⟩ | rfl
      · exact hnot (opcodeBits_eq w ▸ hsw)
      · cases hc
    · exact Nat.not_succ_le_self slot (le_slotOf hnext)

/-- Settles O33: no other opcode is refused for being none, since Table 30-D lists every one. -/
theorem reservedCodesAreIllegal : Obligations.ReservedCodesAreIllegal := by
  unfold Obligations.ReservedCodesAreIllegal
  refine ⟨fun slot w rest hr => ?_, fun slot w rest hr op h => ?_, by decide, by decide⟩
  · exact decodeSlots_of_opcodeFault (by rw [opcodeFault_eq, if_pos hr])
  · rcases decodeSlots_error_cases h with hop | ⟨e, he, hc⟩ | ⟨next, hnext⟩
    · rw [opcodeFault_eq, if_neg hr] at hop
      split at hop <;> cases hop
    · rcases decodeSyllable_error he with ⟨rfl, -⟩ | rfl <;> cases hc
    · exact Nat.not_succ_le_self slot (le_slotOf hnext)

/-- A reserved code and SYL_FOLLOW have no long immediate. -/
theorem opcode_of_long : ∀ op : BitVec 7, takesSource op = true ∨ takesOffset op = true →
    op ∉ reservedCodes ∧ op ≠ followCode := by decide

/-- Settles O32: the long form is read from the long immediate, which is the syllable after it or nothing. -/
theorem longImmediatePairing : Obligations.LongImmediatePairing := by
  unfold Obligations.LongImmediatePairing
  refine ⟨fun slot w rest hf => ?_, fun slot w rest hop hsw hrest => ?_, fun slot w f rest hop hsw hf => ?_,
    fun _ _ => rfl⟩
  · have hr : opcodeBits w ∉ reservedCodes := by rw [hf]; decide
    exact decodeSlots_of_opcodeFault (by rw [opcodeFault_eq, if_neg hr, if_pos hf])
  · obtain ⟨hr, hf⟩ := opcode_of_long _ hop
    obtain ⟨r, hkind, -, hdec⟩ := exists_row w
    obtain ⟨k, hk⟩ := Row.decode_long hkind (opcodeBits_eq w ▸ hop) ((switch_eq_iff w).2.2.2.2 hsw)
    refine decodeSlots_of_error (opcodeFault_eq_none hr hf) (e := .badLongImm) ?_
    rw [hdec, hk, longImm_alone w fun f hf' => opcodeBits_eq f ▸ hrest f hf']
    rfl
  · obtain ⟨hr, hf'⟩ := opcode_of_long _ hop
    obtain ⟨r, hkind, -, hdec⟩ := exists_row w
    obtain ⟨k, hk⟩ := Row.decode_long hkind (opcodeBits_eq w ▸ hop) ((switch_eq_iff w).2.2.2.2 hsw)
    have hw : decodeSyllable w (f :: rest) = .ok (k (f.payload ++ w.imm9), true) := by
      rw [hdec, hk, longImm_cons w rest (opcodeBits_eq f ▸ hf)]
      rfl
    refine ⟨_, hw, ?_⟩
    rw [decodeSlots_of_ok (opcodeFault_eq_none hr hf') hw, decodeSlots_consumed]
    cases decodeSlots (slot + 2) false rest <;> rfl

/-- Settles O46: fetch, decode, check and evaluation one after another, and a slot that decodes hands over. -/
theorem faultPriority : Obligations.FaultPriority := by
  unfold Obligations.FaultPriority
  refine ⟨fun s b c hb hdec => step_of_decode_error hb hdec, fun s b is r hb hdec hr => ?_,
    fun s b pre i post u c hb hdec hreason hpre hi hc => ?_, fun slot w rest i hr hf hw => ?_⟩
  · rw [step_of_decode_ok hb hdec]
    exact runBundle_of_reason hr
  · rw [step_of_decode_ok hb hdec, runBundle_of_none hreason]
    refine runSlots_of_fault post _ (fun j hj => ?_) ((outcome_eq hi).symm ▸ hc)
    obtain ⟨v, hv, hvf⟩ := hpre j hj
    rwa [outcome_eq hv]
  · rw [decodeSlots_of_ok (opcodeFault_eq_none hr hf) hw]
    cases decodeSlots (slot + 1) false rest <;> rfl

/-! ### The opcode map -/

/-- The first opcode of row `n` of spec/opcode_table.json: one opcode a row, but eight for each row of types III and
IV. -/
def rowFirst (n : Nat) : Nat := if n ≤ 48 then n else if n = 49 then 56 else if n ≤ 98 then n + 14 else 120

/-- The last opcode of row `n`. -/
def rowLast (n : Nat) : Nat :=
  if n < 48 then n else if n = 48 then 55 else if n < 98 then n + 14 else if n = 98 then 119 else 127

theorem opcode_in_row (i : Instr) : rowFirst i.ctorIdx ≤ i.opcode.toNat ∧ i.opcode.toNat ≤ rowLast i.ctorIdx := by
  cases i with
  | slct t b1 | slctf t b1 | divs t b b1 | addcg t b b1 =>
    simp only [Instr.opcode, Instr.ctorIdx]
    revert b1
    decide
  | _ =>
    simp only [Instr.opcode, Instr.ctorIdx]
    decide

theorem opcode_in_block (i : Instr) : (family i).first ≤ i.opcode.toNat ∧ i.opcode.toNat ≤ (family i).last := by
  cases i with
  | slct t b1 | slctf t b1 | divs t b b1 | addcg t b b1 =>
    simp only [Instr.opcode, family]
    revert b1
    decide
  | _ =>
    simp only [Instr.opcode, family]
    decide

/-- Only the rows of SLCTF, SLCT, DIVS and ADDCG have more than one opcode. -/
theorem rowLast_eq_rowFirst {i : Instr} (hs : family i ≠ .select) (hc : family i ≠ .carry) :
    rowLast i.ctorIdx = rowFirst i.ctorIdx := by
  cases i with
  | slct | slctf => exact absurd rfl hs
  | divs | addcg => exact absurd rfl hc
  | _ => rfl

theorem rowLast_lt_rowFirst {m n : Nat} (h : m < n) (hn : n < 100) : rowLast m < rowFirst n := by
  unfold rowLast rowFirst
  split_ifs <;> omega

theorem ctorIdx_lt (i : Instr) : i.ctorIdx < 100 := by
  cases i <;> simp only [Instr.ctorIdx] <;> decide

theorem toBits_eq_ofNat (b : BR) : b.toBits = BitVec.ofNat 3 b.val := by
  revert b
  decide

/-- Settles O35. -/
theorem opcodeMapRule : Obligations.OpcodeMapRule := by
  unfold Obligations.OpcodeMapRule
  refine ⟨fun w rest h => ?_, fun op => ?_, fun w rest i next h => ?_, fun i w ws h => ?_, fun t b1 s1 a => ?_,
    fun t b b1 s1 s2 => ?_, fun i j h => ?_, fun i j h hs hc => ?_, opcode_in_block, fun _ => rfl, rfl, fun _ => rfl,
    fun _ => rfl⟩
  · rcases decodeSyllable_error h with ⟨h, -⟩ | h <;> cases h
  · obtain ⟨sw, h⟩ := exists_switch_decodes op
    cases hdec : decodeSyllable (op ++ sw ++ 0#23) [followWord 0] with
    | error e =>
      rw [hdec] at h
      cases h
    | ok p =>
      refine ⟨_, _, p.1, p.2, ?_, hdec⟩
      rw [opcodeBits_eq, ← (decodeSyllable_ok hdec).1]
      rw [hdec] at h
      exact beq_iff_eq.1 h
  · rw [opcodeBits_eq]
    exact (decodeSyllable_ok h).1
  · have hwf : i.wellFormed = true := by_contra fun hwf => by simp [encode, hwf] at h
    obtain ⟨v, vs, hv, -, hdec⟩ := roundTrip_words hwf
    simp only [encode, layout_admits, hwf, layout_words, hv, if_true] at h
    cases h
    rw [opcodeBits_eq]
    exact (decodeSyllable_ok (hdec [])).1.symm
  · simp only [Instr.opcode, toBits_eq_ofNat, and_self]
  · simp only [Instr.opcode, toBits_eq_ofNat, and_self]
  · calc i.opcode.toNat ≤ rowLast i.ctorIdx := (opcode_in_row i).2
      _ < rowFirst j.ctorIdx := rowLast_lt_rowFirst h (ctorIdx_lt j)
      _ ≤ j.opcode.toNat := (opcode_in_row j).1
  · have hi := opcode_in_row i
    have hj := opcode_in_row j
    have hsingle := rowLast_eq_rowFirst hs hc
    rw [← h] at hj
    exact BitVec.eq_of_toNat_eq (by omega)

end Sys2Proof
end

section
/-! PROOFS, the forms of a syllable (spec/30_encoding.md Table 30-B, R67 to R72): the decoder does not see the marks `F`
and `L`, so every form decodes as the encoder's syllable with the same fields does, by the row of its opcode. -/

namespace Sys2Proof

open Sys2Proof.Machine Sys2Proof.Rules

/-! ### The marks (R72) -/

/-- The syllables differ in nothing but their marks. -/
def SameFields (w w' : Syllable) : Prop := w >>> 2 = w' >>> 2

section SameFields

variable {w w' : Syllable}

/-- Every field above the marks. -/
theorem SameFields.extractLsb'_eq (h : SameFields w w') {k : Nat} (hk : 2 ≤ k) (n : Nat) :
    w.extractLsb' k n = w'.extractLsb' k n := by
  have hshift (v : Syllable) : v.extractLsb' k n = (v >>> 2).extractLsb' (k - 2) n := by
    ext i hi
    rw [BitVec.getElem_extractLsb', BitVec.getElem_extractLsb', BitVec.getLsbD_ushiftRight]
    congr 1
    omega
  rw [hshift w, hshift w', h]

theorem SameFields.opcode_eq (h : SameFields w w') : w.opcode = w'.opcode := h.extractLsb'_eq (by decide) _
theorem SameFields.immSw_eq (h : SameFields w w') : w.immSw = w'.immSw := h.extractLsb'_eq (by decide) _
theorem SameFields.dst_eq (h : SameFields w w') : w.dst = w'.dst := h.extractLsb'_eq (by decide) _
theorem SameFields.src1_eq (h : SameFields w w') : w.src1 = w'.src1 := h.extractLsb'_eq (by decide) _
theorem SameFields.src2_eq (h : SameFields w w') : w.src2 = w'.src2 := h.extractLsb'_eq (by decide) _
theorem SameFields.bdst_eq (h : SameFields w w') : w.bdst = w'.bdst := h.extractLsb'_eq (by decide) _
theorem SameFields.imm9_eq (h : SameFields w w') : w.imm9 = w'.imm9 := h.extractLsb'_eq le_rfl _
theorem SameFields.off12_eq (h : SameFields w w') : w.off12 = w'.off12 := h.extractLsb'_eq (by decide) _
theorem SameFields.payload_eq (h : SameFields w w') : w.payload = w'.payload := h.extractLsb'_eq le_rfl _
theorem SameFields.switch_eq (h : SameFields w w') : w.switch = w'.switch := by
  simp only [Syllable.switch, h.immSw_eq]
theorem SameFields.cycles_eq (h : SameFields w w') : w.cycles = w'.cycles := by
  simp only [Syllable.cycles, h.switch_eq, h.off12_eq]

variable {rest rest' : List Syllable}

theorem SameFields.longImm_eq (h : SameFields w w') (hrest : List.Forall₂ SameFields rest rest') :
    w.longImm rest = w'.longImm rest' := by
  cases hrest with
  | nil => rfl
  | cons hf _ => simp only [Syllable.longImm, hf.opcode_eq, hf.payload_eq, h.imm9_eq]

theorem SameFields.immOperand_eq (h : SameFields w w') (hrest : List.Forall₂ SameFields rest rest') (k : Word → Instr) :
    immOperand w rest k = immOperand w' rest' k := by
  simp only [immOperand, h.switch_eq, Syllable.shortImm, h.imm9_eq, h.longImm_eq hrest]

theorem SameFields.row_eq (h : SameFields w w') (hrest : List.Forall₂ SameFields rest rest') (r : Row) :
    r.decode w rest = r.decode w' rest' := by
  cases r <;> simp only [Row.decode, registerOnly, branchOnly, h.immOperand_eq hrest, h.switch_eq, h.dst_eq, h.src1_eq,
    h.src2_eq, h.bdst_eq, h.off12_eq, h.cycles_eq, h.payload_eq]

theorem SameFields.decodeSyllable_eq (h : SameFields w w') (hrest : List.Forall₂ SameFields rest rest') :
    decodeSyllable w rest = decodeSyllable w' rest' := by
  obtain ⟨i, hi⟩ := exists_opcode w.opcode
  rw [decodeSyllable_eq_row rest hi.symm, decodeSyllable_eq_row rest' (h.opcode_eq.symm.trans hi.symm)]
  exact h.row_eq hrest _

end SameFields

theorem sameFields_refl (w : Syllable) : SameFields w w := rfl

theorem sameFields_rest (rest : List Syllable) : List.Forall₂ SameFields rest rest :=
  List.forall₂_same.2 fun w _ => sameFields_refl w

theorem decodeSlots_sameFields {ws ws' : List Syllable} (h : List.Forall₂ SameFields ws ws') (slot : Nat)
    (consumed : Bool) : decodeSlots slot consumed ws = decodeSlots slot consumed ws' := by
  induction h generalizing slot consumed with
  | nil => rfl
  | @cons w w' rest rest' hw hrest ih =>
    cases consumed with
    | true => rw [decodeSlots_consumed, decodeSlots_consumed, ih]
    | false =>
      have hop : opcodeFault slot w = opcodeFault slot w' := by
        rw [opcodeFault_eq, opcodeFault_eq, opcodeBits_eq, opcodeBits_eq, hw.opcode_eq]
      cases hfault : opcodeFault slot w with
      | some c => rw [decodeSlots_of_opcodeFault hfault, decodeSlots_of_opcodeFault (hop ▸ hfault)]
      | none =>
        have hdec' := hw.decodeSyllable_eq hrest
        cases hdec : decodeSyllable w rest with
        | error e =>
          rw [decodeSlots_of_error hfault hdec, decodeSlots_of_error (hop ▸ hfault) (hdec'.symm.trans hdec)]
          cases e <;> simp only [rejectCause, layout_opcode, layout_immSw, hw.opcode_eq, hw.immSw_eq]
        | ok p =>
          rw [decodeSlots_of_ok hfault hdec, decodeSlots_of_ok (hop ▸ hfault) (hdec'.symm.trans hdec), ih]

/-- The encoder sets no mark. -/
def Unmarked (w : Syllable) : Prop := w.getLsbD 0 = false ∧ w.getLsbD 1 = false

theorem unmarked_zero : Unmarked 0 := ⟨rfl, rfl⟩

theorem unmarked_registerWord (op : BitVec 7) (d a c : GR) (b : BR) : Unmarked (registerWord op d a c b) := by
  simp only [Unmarked, registerWord_getLsbD]
  simp
theorem unmarked_branchWord (op : BitVec 7) (d : GR) (off : Off12) (b : BR) : Unmarked (branchWord op d off b) := by
  simp only [Unmarked, branchWord_getLsbD]
  simp
theorem unmarked_immWord (op : BitVec 7) (sw : BitVec 2) (d a : GR) (v : Imm9) : Unmarked (immWord op sw d a v) := by
  simp only [Unmarked, immWord_getLsbD]
  simp
theorem unmarked_followWord (p : BitVec 23) : Unmarked (followWord p) := by
  simp only [Unmarked, followWord_getLsbD]
  simp

theorem unmarked_immWords (op : BitVec 7) (d a : GR) (v : Word) : ∀ w ∈ immWords op d a v, Unmarked w := by
  unfold immWords
  split <;> simp [unmarked_immWord, unmarked_followWord]

theorem unmarked_src2Words (op : BitVec 7) (d a : GR) (x : Src2) : ∀ w ∈ src2Words op d a x, Unmarked w := by
  cases x with
  | reg s2 => simp [src2Words, unmarked_registerWord]
  | imm v => exact unmarked_immWords _ _ _ _

theorem unmarked_truthWords (op : BitVec 7) (d : Target) (a : GR) (x : Src2) :
    ∀ w ∈ truthWords op d a x, Unmarked w := by
  cases d <;> cases x with
  | reg s2 => simp [truthWords, unmarked_registerWord]
  | imm v => exact unmarked_immWords _ _ _ _

theorem unmarked_cyclesWords (op : BitVec 7) (n : Option Nat) : ∀ w ∈ cyclesWords op n, Unmarked w := by
  cases n <;> simp [cyclesWords, unmarked_registerWord, unmarked_branchWord]

theorem unmarked_words (i : Instr) : ∀ w ∈ i.words, Unmarked w := by
  cases i with
  | mpyll | mpyllu | mpylh | mpylhu | mpyhh | mpyhhu | mpyl | mpylu | mpyh | mpyhu | mpyhs
  | add | and | andc | max | maxu | min | minu | or | orc | sh1add | sh2add | sh3add | sh4add | shl | shr | shru | xor
  | sub | slct | slctf => exact unmarked_src2Words _ _ _ _
  | cmpeq | cmpge | cmpgeu | cmpgt | cmpgtu | cmple | cmpleu | cmplt | cmpltu | cmpne
  | nandl | norl | orl | andl => exact unmarked_truthWords _ _ _ _
  | ldw | ldh | ldhu | ldb | ldbu | stw | sth | stb | pft => exact unmarked_immWords _ _ _ _
  | xnop => exact unmarked_cyclesWords _ _
  | sylFollow p => exact List.forall_mem_singleton.2 (unmarked_followWord p)
  | goto | call | br | brf | ret => exact List.forall_mem_singleton.2 (unmarked_branchWord _ _ _ _)
  | _ => exact List.forall_mem_singleton.2 (unmarked_registerWord _ _ _ _ _)

/-- Settles O37. -/
theorem firstAndLastMarks : Obligations.FirstAndLastMarks := by
  unfold Obligations.FirstAndLastMarks
  refine ⟨fun b b' h => ?_, fun is b h k => ?_⟩
  · refine decodeSlots_sameFields (List.forall₂_iff_get.2 ⟨by simp, fun n hn _ => ?_⟩) 0 false
    have hn4 : n < 4 := by simpa using hn
    simpa [SameFields] using h ⟨n, hn4⟩
  · have hb : b = markBundle (padBundle (is.flatMap Instr.words)) := by
      unfold assemble at h
      split at h
      · exact (Option.some.inj h).symm
      · cases h
    have hpad : Unmarked ((is.flatMap Instr.words).getD k.val 0) := by
      rw [List.getD_eq_getElem?_getD]
      cases hw : (is.flatMap Instr.words)[k.val]? with
      | none => exact unmarked_zero
      | some w =>
        obtain ⟨i, -, hi⟩ := List.mem_flatMap.1 (List.mem_of_getElem? hw)
        exact unmarked_words i w hi
    obtain ⟨h0, h1⟩ := hpad
    subst hb
    fin_cases k <;> simp [markBundle, padBundle] at h0 h1 ⊢ <;> simp [h0, h1]

end Sys2Proof
end

section
/-! PROOFS, the forms of Table 30-C in the words of the rules: which forms an opcode admits, and what they decode to,
read off the row of an operation with that opcode. -/

namespace Sys2Proof

open Sys2Proof.Machine Sys2Proof.Rules

/-! ### Each form is an encoder's syllable but for its marks -/

theorem sameFields_append (x : BitVec 30) (lf lf' : BitVec 2) : SameFields (x ++ lf) (x ++ lf') := by
  unfold SameFields
  ext i hi
  simp only [BitVec.getElem_ushiftRight]
  rw [show (x ++ lf).getLsbD (2 + i) = _ from BitVec.getLsbD_append,
    show (x ++ lf').getLsbD (2 + i) = _ from BitVec.getLsbD_append, if_neg (by omega), if_neg (by omega)]

theorem regForm_sameFields (op : BitVec 7) (d a c : BitVec 6) (b : BitVec 3) (lf : BitVec 2) :
    SameFields (regForm op d a c b lf) (registerWord op (grOf d) (grOf a) (grOf c) (brOf b)) := sameFields_append _ _ _
theorem shortForm_sameFields (op : BitVec 7) (d a : BitVec 6) (v : BitVec 9) (lf : BitVec 2) :
    SameFields (shortForm op d a v lf) (immWord op 0b01#2 (grOf d) (grOf a) v) := sameFields_append _ _ _
theorem longForm_sameFields (op : BitVec 7) (d a : BitVec 6) (v : BitVec 9) (lf : BitVec 2) :
    SameFields (longForm op d a v lf) (immWord op 0b11#2 (grOf d) (grOf a) v) := sameFields_append _ _ _
theorem offForm_sameFields (op : BitVec 7) (d : BitVec 6) (o : BitVec 12) (b : BitVec 3) (lf : BitVec 2) :
    SameFields (offForm op d o b lf) (branchWord op (grOf d) o (brOf b)) := sameFields_append _ _ _
theorem followForm_sameFields (p : BitVec 23) (lf : BitVec 2) : SameFields (followForm p lf) (followWord p) :=
  sameFields_append _ _ _

section Forms

variable (i : Instr) (d a c : BitVec 6) (b : BitVec 3) (v : BitVec 9) (o : BitVec 12) (lf : BitVec 2)
  (rest : List Syllable)

/-! The forms with the opcode of `i` decode by its row. -/

theorem decode_regForm : decodeSyllable (regForm i.opcode d a c b lf) rest =
    i.row.decode (registerWord i.opcode (grOf d) (grOf a) (grOf c) (brOf b)) rest := by
  rw [(regForm_sameFields ..).decodeSyllable_eq (sameFields_rest rest),
    decodeSyllable_eq_row rest (registerWord_opcode ..)]

theorem decode_shortForm : decodeSyllable (shortForm i.opcode d a v lf) rest =
    i.row.decode (immWord i.opcode 0b01#2 (grOf d) (grOf a) v) rest := by
  rw [(shortForm_sameFields ..).decodeSyllable_eq (sameFields_rest rest),
    decodeSyllable_eq_row rest (immWord_opcode ..)]

theorem decode_offForm : decodeSyllable (offForm i.opcode d o b lf) rest =
    i.row.decode (branchWord i.opcode (grOf d) o (brOf b)) rest := by
  rw [(offForm_sameFields ..).decodeSyllable_eq (sameFields_rest rest),
    decodeSyllable_eq_row rest (branchWord_opcode ..)]

theorem decode_longForm {rest rest' : List Syllable} (h : List.Forall₂ SameFields rest rest') :
    decodeSyllable (longForm i.opcode d a v lf) rest =
      i.row.decode (immWord i.opcode 0b11#2 (grOf d) (grOf a) v) rest' := by
  rw [(longForm_sameFields ..).decodeSyllable_eq h, decodeSyllable_eq_row rest' (immWord_opcode ..)]

end Forms

/-! ### The forms of a row -/

section Rows

variable {i : Instr} {reg : BitVec 6 → BitVec 6 → BitVec 6 → BitVec 3 → Instr}
  {imm : BitVec 6 → BitVec 6 → Word → Instr}

theorem immediateForms_of_row (hrow : (∃ reg, i.row = .source reg imm) ∨ i.row = .offset imm) :
    ImmediateForms i.opcode imm := by
  have hdec {w : Syllable} (rest : List Syllable) (hw : w.switch = .short ∨ w.switch = .long) :
      i.row.decode w rest = immOperand w rest (imm w.dst w.src1) := by
    rcases hrow with ⟨reg, hrow⟩ | hrow <;> rcases hw with hw | hw <;> simp only [hrow, Row.decode, hw]
  intro d a v p lf lf' rest
  refine ⟨?_, ?_, fun hrest => ?_⟩
  · rw [decode_shortForm, hdec rest (.inl (immWord_switch_short ..)), immOperand_short]
    simp
  · rw [decode_longForm i d a v lf (.cons (followForm_sameFields p lf') (sameFields_rest rest)),
      hdec _ (.inr (immWord_switch_long ..)), immOperand_long _ _ _ _ (followWord_opcode p)]
    simp
  · rw [decode_longForm i d a v lf (sameFields_rest rest), hdec rest (.inr (immWord_switch_long ..)),
      immOperand_long_alone]
    exact fun f hf => opcodeBits_eq f ▸ hrest f hf

theorem registerOrImmediate_of_row (hrow : i.row = .source reg imm) : RegisterOrImmediate i.opcode reg imm := by
  refine ⟨fun d a c b o lf rest => ⟨?_, ?_⟩, immediateForms_of_row (.inl ⟨reg, hrow⟩)⟩
  · rw [decode_regForm, hrow]
    simp [Row.decode, plain]
  · rw [decode_offForm, hrow]
    simp [Row.decode]

theorem onlyImmediate_of_row (hrow : i.row = .offset imm) : OnlyImmediate i.opcode imm := by
  refine ⟨fun d a c b o lf rest => ⟨?_, ?_⟩, immediateForms_of_row (.inr hrow)⟩
  · rw [decode_regForm, hrow]
    simp [Row.decode, immOperand]
  · rw [decode_offForm, hrow]
    simp [Row.decode, immOperand]

theorem onlyRegister_of_row (hrow : i.row = .registers reg) : OnlyRegister i.opcode reg := by
  intro d a c b v o lf rest
  rw [decode_regForm, decode_shortForm, decode_offForm, decode_longForm i d a v lf (sameFields_rest rest), hrow]
  simp [Row.decode, registerOnly, plain]

theorem onlyBranch_of_row {mk : BitVec 6 → BitVec 12 → BitVec 3 → Instr} (hrow : i.row = .label mk) :
    OnlyBranch i.opcode mk := by
  intro d a c b v o lf rest
  rw [decode_regForm, decode_shortForm, decode_offForm, decode_longForm i d a v lf (sameFields_rest rest), hrow]
  simp [Row.decode, branchOnly, plain]

/-- An operation that carries no bits below its opcode. -/
theorem anyBits_of_row (hrow : i.row = .free fun _ _ => i) : AnyBits i.opcode i := by
  intro low rest
  have hop : (i.opcode ++ low).extractLsb' 25 7 = i.opcode := by
    ext n hn
    rw [BitVec.getElem_extractLsb', show (i.opcode ++ low).getLsbD (25 + n) = _ from BitVec.getLsbD_append,
      if_neg (by omega), Nat.add_sub_cancel_left, BitVec.getLsbD_eq_getElem hn]
  rw [decodeSyllable_eq_row rest hop, hrow]
  rfl

end Rows

end Sys2Proof
end

section
/-! PROOFS, the rule of one operation, by type (spec/30_encoding.md Table 30-C): what the shared operation of a type
does in the words of the rules, and with the forms of its row the whole rule. -/

namespace Sys2Proof.Machine

open Sys2Proof.Rules

/-! ### The registers of a row are read -/

/-- Every operation reads the registers of its row (60_exceptions.md R222). -/
theorem exec_of_firstUnread {i : Instr} {s : State} {p : ReadPlace}
    (h : FirstUnread s (access i).grReads (access i).brReads p) : exec i s = raised s (.unwrittenRead p) := by
  obtain ⟨f, hexec, -⟩ := exec_reads_and_ends i
  rw [hexec, reading_of_firstUnread _ h]

theorem readsThese_of_access {i : Instr} {grs : List GR} {brs : List BR} (hg : (access i).grReads = grs)
    (hb : (access i).brReads = brs) : ReadsThese i grs brs := by
  subst hg hb
  exact fun s p h => exec_of_firstUnread h

/-! ### The shared operations, their registers readable -/

section Shared

variable {s : State}

theorem binaryOp_of_readable {t s1 : GR} {a : Src2} (f : Word → Word → Word)
    (h : Readable s (s1 :: named a) []) :
    binaryOp t s1 a f s = .next (putGr s t (f (gval s s1) (sval s a)) (s.pc + 1)) := by
  rw [binaryOp, srcReads_eq_named, reading_of_readable _ h, writeGr_advance_eq_putGr, readGr_eq_gval, src2_eq_sval]

theorem shiftOp_of_readable {op : Params.Shift} {t s1 : GR} {a : Src2} (f : Word → Nat → Word)
    (h : Readable s (s1 :: named a) []) (ha : (sval s a).toNat ≤ 31) :
    shiftOp op t s1 a f s = .next (putGr s t (f (gval s s1) (sval s a).toNat) (s.pc + 1)) := by
  rw [shiftOp, srcReads_eq_named, reading_of_readable _ h, src2_eq_sval, if_pos ha, writeGr_advance_eq_putGr,
    readGr_eq_gval]

theorem shiftOp_beyond_of_readable {op : Params.Shift} {t s1 : GR} {a : Src2} {f : Word → Nat → Word}
    (h : Readable s (s1 :: named a) []) (ha : 31 < (sval s a).toNat) :
    shiftOp op t s1 a f s =
      .next { putGr s t (Config.draw32 s.draws t) (s.pc + 1) with draws := s.draws + 1 } := by
  rw [shiftOp, srcReads_eq_named, reading_of_readable _ h, src2_eq_sval, if_neg ha.not_ge, shiftOut_eq,
    ← writeGr_advance_eq_putGr]
  rfl

theorem unaryOp_of_readable {t s1 : GR} (f : Word → Word) (h : Readable s [s1] []) :
    unaryOp t s1 f s = .next (putGr s t (f (gval s s1)) (s.pc + 1)) := by
  rw [unaryOp, reading_of_readable _ h, writeGr_advance_eq_putGr, readGr_eq_gval]

theorem truthOp_of_readable {d : Target} {s1 : GR} {a : Src2} (c : Word → Word → Bool)
    (h : Readable s (s1 :: named a) []) : truthOp d s1 a c s = .next (putTruth s d (c (gval s s1) (sval s a))) := by
  rw [truthOp, srcReads_eq_named, reading_of_readable _ h, writeTruth_advance_eq_putTruth, readGr_eq_gval, src2_eq_sval]

theorem selectOp_of_readable {t : GR} {b1 : BR} {s1 : GR} {a : Src2} (f : Bool → Word → Word → Word)
    (h : Readable s (s1 :: named a) [b1]) :
    selectOp t b1 s1 a f s = .next (putGr s t (f s.br[b1] (gval s s1) (sval s a)) (s.pc + 1)) := by
  rw [selectOp, srcReads_eq_named, reading_of_readable _ h, writeGr_advance_eq_putGr, readGr_eq_gval, src2_eq_sval,
    readBr_eq]

theorem carryOp_of_readable {t : GR} {b b1 : BR} {s1 s2 : GR} (f : Bool → Word → Word → Word)
    (c : Bool → Word → Word → Bool) (h : Readable s [s1, s2] [b1]) :
    carryOp t b b1 s1 s2 f c s = .next (putBr (putGr s t (f s.br[b1] (gval s s1) (gval s s2)) (s.pc + 1)) b
      (c s.br[b1] (gval s s1) (gval s s2)) (s.pc + 1)) := by
  rw [carryOp, reading_of_readable _ h, ← writeGr_advance_eq_putGr, readGr_eq_gval, readGr_eq_gval, readBr_eq,
    writeBr_advance_eq_putBr, State.writeGr_pc]
  rfl

theorem branchOp_of_readable {b : BR} {off : Int} (taken : Bool → Bool) (h : Readable s [] [b]) :
    branchOp b off taken s = .next { s with pc := if taken s.br[b] then s.pc + off else s.pc + 1 } := by
  rw [branchOp, reading_of_readable _ h, relTarget_eq, readBr_eq]
  split <;> rfl

end Shared

/-! ### The rules

Each takes that the result `g` of the model is the result `f` of the rule; what the model says of the operation itself,
its meaning, its row of Table 30-C, its forms and its opcode, is checked by evaluation where the rule is used. -/

/-- Types I and VI. -/
theorem binaryRule_of {mk : GR → GR → Src2 → Instr} {op : BitVec 7} {f g : Word → Word → Word}
    (hf : ∀ a b, g a b = f a b)
    (hexec : ∀ t s1 a s, exec (mk t s1 a) s = binaryOp t s1 a g s := by intros; rfl)
    (hacc : ∀ t s1 a, access (mk t s1 a) = { grReads := s1 :: srcReads a, grWrites := [t] } := by intros; rfl)
    (hrow : (mk 0 0 (.imm 0)).row = .ofTypeI mk := by rfl) (hop : (mk 0 0 (.imm 0)).opcode = op := by rfl) :
    BinaryRule op mk f := by
  refine ⟨fun t s1 a s h => ?_, fun t s1 a => ?_, hop ▸ registerOrImmediate_of_row hrow⟩
  · rw [hexec, binaryOp_of_readable g h, hf]
  · exact readsThese_of_access (by rw [hacc, srcReads_eq_named]) (by rw [hacc])

/-- Type VII. -/
theorem unaryRule_of {mk : GR → GR → Instr} {op : BitVec 7} {f g : Word → Word} (hf : ∀ a, g a = f a)
    (hexec : ∀ t s1 s, exec (mk t s1) s = unaryOp t s1 g s := by intros; rfl)
    (hacc : ∀ t s1, access (mk t s1) = { grReads := [s1], grWrites := [t] } := by intros; rfl)
    (hrow : (mk 0 0).row = .registers fun d a _ _ => mk d.toFin a.toFin := by rfl)
    (hop : (mk 0 0).opcode = op := by rfl) : UnaryRule op mk f := by
  refine ⟨fun t s1 s h => ?_, fun t s1 => ?_, hop ▸ onlyRegister_of_row hrow⟩
  · rw [hexec, unaryOp_of_readable g h, hf]
  · exact readsThese_of_access (by rw [hacc]) (by rw [hacc])

/-- Type II. -/
theorem truthRule_of {mk : Target → GR → Src2 → Instr} {op : BitVec 7} {c g : Word → Word → Bool}
    (hc : ∀ a b, g a b = c a b)
    (hexec : ∀ d s1 a s, exec (mk d s1 a) s = truthOp d s1 a g s := by intros; rfl)
    (hacc : ∀ d s1 a, access (mk d s1 a) =
      { grReads := s1 :: srcReads a, grWrites := targetGrWrites d, brWrites := targetBrWrites d } := by intros; rfl)
    (hrow : (mk (.gr 0) 0 (.imm 0)).row = .ofTypeII mk := by rfl)
    (hop : (mk (.gr 0) 0 (.imm 0)).opcode = op := by rfl) : TruthRule op mk c := by
  refine ⟨fun d s1 a s h => ?_, fun d s1 a => ?_, hop ▸ registerOrImmediate_of_row hrow⟩
  · rw [hexec, truthOp_of_readable g h, hc]
  · exact readsThese_of_access (by rw [hacc, srcReads_eq_named]) (by rw [hacc])

/-- Type III. -/
theorem selectRule_of {mk : GR → BR → GR → Src2 → Instr} {op : BitVec 4} {f g : Bool → Word → Word → Word}
    (hf : ∀ c a b, g c a b = f c a b)
    (hexec : ∀ t b1 s1 a s, exec (mk t b1 s1 a) s = selectOp t b1 s1 a g s := by intros; rfl)
    (hacc : ∀ t b1 s1 a,
      access (mk t b1 s1 a) = { grReads := s1 :: srcReads a, brReads := [b1], grWrites := [t] } := by intros; rfl)
    (hrow : ∀ b1, (mk 0 b1 0 (.imm 0)).row = .ofTypeI fun t s1 a => mk t b1 s1 a := by intros; rfl)
    (hop : ∀ b1, (mk 0 b1 0 (.imm 0)).opcode = op ++ b1.toBits := by intros; rfl) : SelectRule op mk f := by
  refine ⟨fun t b1 s1 a s h => ?_, fun t b1 s1 a => ?_, fun b1 => ?_⟩
  · rw [hexec, selectOp_of_readable g h, hf]
  · exact readsThese_of_access (by rw [hacc, srcReads_eq_named]) (by rw [hacc])
  · exact (hop b1.toFin) ▸ registerOrImmediate_of_row (hrow b1.toFin)

/-- Type IV. -/
theorem carryRule_of {mk : GR → BR → BR → GR → GR → Instr} {op : BitVec 4} {f g : Bool → Word → Word → Word}
    {c h : Bool → Word → Word → Bool} (hf : ∀ x a b, g x a b = f x a b) (hc : ∀ x a b, h x a b = c x a b)
    (hexec : ∀ t b b1 s1 s2 s, exec (mk t b b1 s1 s2) s = carryOp t b b1 s1 s2 g h s := by intros; rfl)
    (hacc : ∀ t b b1 s1 s2, access (mk t b b1 s1 s2) =
      { grReads := [s1, s2], brReads := [b1], grWrites := [t], brWrites := [b] } := by intros; rfl)
    (hrow : ∀ b1, (mk 0 0 b1 0 0).row = .registers fun d a c b => mk d.toFin b.toFin b1 a.toFin c.toFin := by
      intros; rfl)
    (hop : ∀ b1, (mk 0 0 b1 0 0).opcode = op ++ b1.toBits := by intros; rfl) : CarryRule op mk f c := by
  refine ⟨fun t b b1 s1 s2 s hs => ?_, fun t b b1 s1 s2 => ?_, fun b1 => ?_⟩
  · rw [hexec, carryOp_of_readable g h hs, hf, hc]
  · exact readsThese_of_access (by rw [hacc]) (by rw [hacc])
  · exact (hop b1.toFin) ▸ onlyRegister_of_row (hrow b1.toFin)

/-- Type VIII. -/
theorem branchRule_of {mk : BR → Int → Instr} {op : BitVec 7} {taken : Bool} {g : Bool → Bool}
    (hg : ∀ c, g c = true ↔ c = taken)
    (hexec : ∀ b off s, exec (mk b off) s = branchOp b off g s := by intros; rfl)
    (hacc : ∀ b off, access (mk b off) = { brReads := [b], control := true } := by intros; rfl)
    (hrow : (mk 0 0).row = .label fun _ o b => mk b.toFin o.toInt := by rfl)
    (hop : (mk 0 0).opcode = op := by rfl) : BranchRule op mk taken := by
  refine ⟨fun b off s h => ?_, fun b off => ?_, hop ▸ onlyBranch_of_row hrow⟩
  · rw [hexec, branchOp_of_readable g h]
    simp only [hg]
  · exact readsThese_of_access (by rw [hacc]) (by rw [hacc])

end Sys2Proof.Machine
end

section
/-! PROOFS, the ALU and MUL operations (spec/40_alu.md, spec/41_mul.md): each result in the words of the rules. -/

namespace Sys2Proof.Machine

open Sys2Proof.Rules

/-! ### Words as numbers -/

theorem shiftLeft_eq_mul (a : Word) (n : Nat) : a <<< n = BitVec.ofNat 32 (2 ^ n) * a := by
  refine BitVec.eq_of_toNat_eq ?_
  simp [Nat.shiftLeft_eq, Nat.mul_comm]

theorem shiftLeft_eq_ofNat (a : Word) (n : Nat) : a <<< n = BitVec.ofNat 32 (a.toNat * 2 ^ n) := by
  refine BitVec.eq_of_toNat_eq ?_
  simp [Nat.shiftLeft_eq]

theorem sshiftRight_eq_ofInt (a : Word) (n : Nat) : a.sshiftRight n = BitVec.ofInt 32 (a.toInt / 2 ^ n) := by
  rw [BitVec.sshiftRight, Int.shiftRight_eq_div_pow, Nat.cast_pow, Nat.cast_ofNat]

theorem ushiftRight_eq_ofNat (a : Word) (n : Nat) : a >>> n = BitVec.ofNat 32 (a.toNat / 2 ^ n) := by
  refine BitVec.eq_of_toNat_eq ?_
  rw [BitVec.toNat_ushiftRight, Nat.shiftRight_eq_div_pow, BitVec.toNat_ofNat,
    Nat.mod_eq_of_lt ((Nat.div_le_self _ _).trans_lt a.isLt)]

theorem sub_eq_ofInt (a b : Word) : b - a = BitVec.ofInt 32 (b.toInt - a.toInt) := by
  refine BitVec.eq_of_toInt_eq ?_
  rw [BitVec.toInt_sub, BitVec.toInt_ofInt]

theorem sext8_eq (a : Word) : sext8 a = BitVec.ofInt 32 (Int.bmod a.toNat 256) := by
  rw [sext8, BitVec.signExtend, BitVec.toInt_setWidth]

theorem sext16_eq (a : Word) : sext16 a = BitVec.ofInt 32 (Int.bmod a.toNat 65536) := by
  rw [sext16, BitVec.signExtend, BitVec.toInt_setWidth]

theorem zext8_eq (a : Word) : zext8 a = a &&& 0x000000FF := by
  refine BitVec.eq_of_toNat_eq ?_
  simp [zext8, Nat.and_two_pow_sub_one_eq_mod a.toNat 8]
  omega

theorem zext16_eq (a : Word) : zext16 a = a &&& 0x0000FFFF := by
  refine BitVec.eq_of_toNat_eq ?_
  simp [zext16, Nat.and_two_pow_sub_one_eq_mod a.toNat 16]
  omega

theorem lo_eq (a : Word) : lo a = a.setWidth 16 := by
  ext i hi
  simp [lo]

theorem lo_toNat (a : Word) : (lo a).toNat = a.toNat % 65536 := by simp [lo_eq]

theorem hi_toNat (a : Word) : (hi a).toNat = a.toNat / 65536 := by
  simp [hi, Nat.shiftRight_eq_div_pow]
  omega

theorem hi_toInt (a : Word) : (hi a).toInt = a.toInt / 65536 := by
  rw [BitVec.toInt_eq_toNat_cond, BitVec.toInt_eq_toNat_cond, hi_toNat]
  have := a.isLt
  split <;> split <;> omega

theorem bne_eq_decide_ne (a b : Word) : (a != b) = decide (a ≠ b) := by
  rw [bne, beq_eq_decide, decide_not]

/-! ### ALU -/

/-- Settles O1. -/
theorem addAndLogicRules : Obligations.AddAndLogicRules := by
  unfold Obligations.AddAndLogicRules
  refine ⟨?_, ?_, ?_, ?_⟩ <;> exact binaryRule_of fun _ _ => rfl

/-- Settles O2: a shift to the left is a product. -/
theorem complementAndShiftAddRules : Obligations.ComplementAndShiftAddRules := by
  unfold Obligations.ComplementAndShiftAddRules
  have hshift (n : Nat) (a b : Word) : (a <<< n) + b = BitVec.ofNat 32 (2 ^ n) * a + b := by rw [shiftLeft_eq_mul]
  refine ⟨?_, ?_, ?_, ?_, ?_, ?_⟩
  · exact binaryRule_of fun _ _ => rfl
  · exact binaryRule_of fun _ _ => rfl
  · exact binaryRule_of (hshift 1)
  · exact binaryRule_of (hshift 2)
  · exact binaryRule_of (hshift 3)
  · exact binaryRule_of (hshift 4)

/-! The larger or smaller word is the one whose number is. -/

theorem max_signed (a b : Word) : (if b.toInt ≤ a.toInt then a else b) = BitVec.ofInt 32 (max a.toInt b.toInt) := by
  rw [max_comm, max_def, apply_ite (BitVec.ofInt 32), BitVec.ofInt_toInt, BitVec.ofInt_toInt]

theorem max_unsigned (a b : Word) : (if b.toNat ≤ a.toNat then a else b) = BitVec.ofNat 32 (max a.toNat b.toNat) := by
  rw [max_comm, max_def, apply_ite (BitVec.ofNat 32), BitVec.ofNat_toNat, BitVec.ofNat_toNat, BitVec.setWidth_eq,
    BitVec.setWidth_eq]

theorem min_signed (a b : Word) : (if a.toInt ≤ b.toInt then a else b) = BitVec.ofInt 32 (min a.toInt b.toInt) := by
  rw [min_def, apply_ite (BitVec.ofInt 32), BitVec.ofInt_toInt, BitVec.ofInt_toInt]

theorem min_unsigned (a b : Word) : (if a.toNat ≤ b.toNat then a else b) = BitVec.ofNat 32 (min a.toNat b.toNat) := by
  rw [min_def, apply_ite (BitVec.ofNat 32), BitVec.ofNat_toNat, BitVec.ofNat_toNat, BitVec.setWidth_eq,
    BitVec.setWidth_eq]

/-- Settles O3. -/
theorem aluMaximumAndMinimumRules : Obligations.AluMaximumAndMinimumRules := by
  unfold Obligations.AluMaximumAndMinimumRules
  exact ⟨binaryRule_of max_signed, binaryRule_of max_unsigned, binaryRule_of min_signed, binaryRule_of min_unsigned⟩

/-- Settles O4. -/
theorem shiftsWithinTheWidth : Obligations.ShiftsWithinTheWidth := by
  unfold Obligations.ShiftsWithinTheWidth
  intro t s1 a s h ha
  refine ⟨?_, ?_, ?_⟩
  · rw [← shiftLeft_eq_ofNat]
    exact shiftOp_of_readable (fun a n => a <<< n) h ha
  · rw [← sshiftRight_eq_ofInt]
    exact shiftOp_of_readable (fun a n => a.sshiftRight n) h ha
  · rw [← ushiftRight_eq_ofNat]
    exact shiftOp_of_readable (fun a n => a >>> n) h ha

/-- Settles O5: the value is the draw. -/
theorem shiftsBeyondTheWidthDrawAValue : Obligations.ShiftsBeyondTheWidthDrawAValue := by
  unfold Obligations.ShiftsBeyondTheWidthDrawAValue
  rintro i t s1 a s (rfl | rfl | rfl) h ha <;> exact ⟨_, shiftOp_beyond_of_readable h ha⟩

/-- Settles O6. -/
theorem shiftReadsAndEncodings : Obligations.ShiftReadsAndEncodings := by
  unfold Obligations.ShiftReadsAndEncodings
  have hshift {mk : GR → GR → Src2 → Instr} {op : BitVec 7}
      (hreads : ∀ t s1 a, (access (mk t s1 a)).grReads = s1 :: srcReads a ∧ (access (mk t s1 a)).brReads = [])
      (hrow : (mk 0 0 (.imm 0)).row = .ofTypeI mk) (hop : (mk 0 0 (.imm 0)).opcode = op) :
      (∀ t s1 a, ReadsThese (mk t s1 a) (s1 :: named a) []) ∧
      RegisterOrImmediate op (fun d a c _ => mk d.toFin a.toFin (.reg c.toFin))
        (fun d a v => mk d.toFin a.toFin (.imm v)) :=
    ⟨fun t s1 a => readsThese_of_access ((hreads t s1 a).1.trans (by rw [srcReads_eq_named])) (hreads t s1 a).2,
      hop ▸ registerOrImmediate_of_row hrow⟩
  intro p hp
  simp only [List.mem_cons, List.not_mem_nil, or_false] at hp
  rcases hp with rfl | rfl | rfl <;> exact hshift (fun _ _ _ => ⟨rfl, rfl⟩) rfl rfl

/-- Settles O7. -/
theorem subtractRule : Obligations.SubtractRule := by
  unfold Obligations.SubtractRule
  exact binaryRule_of sub_eq_ofInt

/-- Settles O8. -/
theorem extensionAndMoveRules : Obligations.ExtensionAndMoveRules := by
  unfold Obligations.ExtensionAndMoveRules
  exact ⟨unaryRule_of sext8_eq, unaryRule_of sext16_eq, unaryRule_of zext8_eq, unaryRule_of zext16_eq,
    unaryRule_of fun _ => rfl⟩

/-- Settles O9. -/
theorem compareEqualAndGreaterRules : Obligations.CompareEqualAndGreaterRules := by
  unfold Obligations.CompareEqualAndGreaterRules
  refine ⟨truthRule_of fun a b => beq_eq_decide a b, ?_, ?_, ?_, ?_⟩
  all_goals exact truthRule_of fun _ _ => rfl

/-- Settles O10. -/
theorem compareLessAndUnequalRules : Obligations.CompareLessAndUnequalRules := by
  unfold Obligations.CompareLessAndUnequalRules
  refine ⟨?_, ?_, ?_, ?_, truthRule_of bne_eq_decide_ne⟩
  all_goals exact truthRule_of fun _ _ => rfl

theorem truth_eq (v : Word) : truth v = decide (v ≠ 0) := bne_eq_decide_ne v 0

/-- Settles O11. -/
theorem logicalTruthRules : Obligations.LogicalTruthRules := by
  unfold Obligations.LogicalTruthRules
  refine ⟨?_, ?_, ?_, ?_⟩
  · refine truthRule_of fun a b => ?_
    rw [nandlFlag, truth_eq, truth_eq, ← Bool.decide_and, ← decide_not]
  · refine truthRule_of fun a b => ?_
    rw [norlFlag, truth_eq, truth_eq, ← Bool.decide_or, ← decide_not]
  · refine truthRule_of fun a b => ?_
    rw [orlFlag, truth_eq, truth_eq, Bool.decide_or]
  · refine truthRule_of fun a b => ?_
    rw [andlFlag, truth_eq, truth_eq, Bool.decide_and]

/-- Settles O12. -/
theorem moveToBranchRegisterRule : Obligations.MoveToBranchRegisterRule := by
  unfold Obligations.MoveToBranchRegisterRule
  refine ⟨fun b s1 s h => ?_, fun b s1 => readsThese_of_access rfl rfl, onlyRegister_of_row (i := .mtb 0 0) rfl⟩
  have hexec : exec (.mtb b s1) s = .next (s.writeBr b (mtbFlag (s.readGr s1))).advance := reading_of_readable _ h
  rw [hexec, writeBr_advance_eq_putBr, readGr_eq_gval, mtbFlag, truth_eq]

/-- The carry out is bit 32 of a sum below 2^33. -/
theorem addcgCarry_eq (c : Bool) (a b : Word) : addcgCarry c a b = decide (2 ^ 32 ≤ a.toNat + b.toNat + c.toNat) := by
  have ha := a.isLt
  have hb := b.isLt
  have hc := c.toNat_le
  rw [addcgCarry, addcgSum, Nat.testBit_eq_decide_div_mod_eq, decide_eq_decide]
  omega

/-- Settles O13. -/
theorem addWithCarryRule : Obligations.AddWithCarryRule := by
  unfold Obligations.AddWithCarryRule
  exact carryRule_of (fun _ _ _ => rfl) addcgCarry_eq

theorem getLsbD_31_eq (a : Word) : a.getLsbD 31 = decide (2 ^ 31 ≤ a.toNat) := BitVec.msb_eq_decide a

/-- The carry enters the place that the shift leaves free. -/
theorem shiftLeft_one_or_truthWord (c : Bool) (a : Word) :
    a <<< 1 ||| truthWord c = BitVec.ofNat 32 (2 * a.toNat + c.toNat) := by
  have hdisjoint : a <<< 1 &&& truthWord c = 0 := by
    ext i hi
    cases c <;> simp [truthWord]
    omega
  rw [← BitVec.add_eq_or_of_and_eq_zero _ _ hdisjoint]
  refine BitVec.eq_of_toNat_eq ?_
  cases c <;> simp [truthWord, Nat.shiftLeft_eq] <;> omega

/-- Settles O14. -/
theorem divisionStepRule : Obligations.DivisionStepRule := by
  unfold Obligations.DivisionStepRule
  refine carryRule_of (fun c a b => ?_) fun _ a _ => getLsbD_31_eq a
  simp only [divsValue, getLsbD_31_eq, decide_eq_true_eq, shiftLeft_one_or_truthWord]

theorem select_on_false (c : Bool) (a b : Word) : (if c then b else a) = if c = false then a else b := by
  cases c <;> rfl

/-- Settles O15. -/
theorem selectRules : Obligations.SelectRules := by
  unfold Obligations.SelectRules
  exact ⟨selectRule_of fun _ _ _ => rfl, selectRule_of select_on_false⟩

/-- Settles O16. -/
theorem noArithmeticConditionFaults : Obligations.NoArithmeticConditionFaults := by
  unfold Obligations.NoArithmeticConditionFaults
  intro i s hi h
  obtain ⟨hcontrol, hstore, hstop⟩ : (access i).control = false ∧ (access i).store = none ∧ i ≠ .stop := by
    cases i with
    | stop => cases hi
    | goto | igoto | call | icall | br | brf | ret | stw | sth | stb => cases hi
    | _ => exact ⟨rfl, rfl, nofun⟩
  obtain ⟨f, hexec, hends⟩ := exec_reads_and_ends i
  obtain ⟨t, ht, hdone | ⟨c, -, hnot, -⟩⟩ := hends s
  · have hnext : exec i s = .next t := by rw [hexec, reading_of_readable _ h, ht]
    exact ⟨t, hnext, hdone.fault, hdone.pc hcontrol, exec_keepsDmem hstore s t hnext, hdone.halted hstop⟩
  · rw [hi] at hnot
    cases hnot

/-! ### MUL -/

section Products

variable (a b : Word)

theorem mpyll_eq : signedProduct (lo a).toInt (lo b).toInt =
    BitVec.ofInt 32 ((a.setWidth 16).toInt * (b.setWidth 16).toInt) := by rw [signedProduct, lo_eq, lo_eq]
theorem mpyllu_eq : unsignedProduct (lo a).toNat (lo b).toNat =
    BitVec.ofNat 32 ((a.toNat % 65536) * (b.toNat % 65536)) := by rw [unsignedProduct, lo_toNat, lo_toNat]
theorem mpylh_eq : signedProduct (lo a).toInt (hi b).toInt =
    BitVec.ofInt 32 ((a.setWidth 16).toInt * (b.toInt / 65536)) := by rw [signedProduct, lo_eq, hi_toInt]
theorem mpylhu_eq : unsignedProduct (lo a).toNat (hi b).toNat =
    BitVec.ofNat 32 ((a.toNat % 65536) * (b.toNat / 65536)) := by rw [unsignedProduct, lo_toNat, hi_toNat]
theorem mpyhh_eq : signedProduct (hi a).toInt (hi b).toInt =
    BitVec.ofInt 32 ((a.toInt / 65536) * (b.toInt / 65536)) := by rw [signedProduct, hi_toInt, hi_toInt]
theorem mpyhhu_eq : unsignedProduct (hi a).toNat (hi b).toNat =
    BitVec.ofNat 32 ((a.toNat / 65536) * (b.toNat / 65536)) := by rw [unsignedProduct, hi_toNat, hi_toNat]
theorem mpyl_eq : signedProduct a.toInt (lo b).toInt = BitVec.ofInt 32 (a.toInt * (b.setWidth 16).toInt) := by
  rw [signedProduct, lo_eq]
theorem mpylu_eq : unsignedProduct a.toNat (lo b).toNat = BitVec.ofNat 32 (a.toNat * (b.toNat % 65536)) := by
  rw [unsignedProduct, lo_toNat]
theorem mpyh_eq : signedProduct a.toInt (hi b).toInt = BitVec.ofInt 32 (a.toInt * (b.toInt / 65536)) := by
  rw [signedProduct, hi_toInt]
theorem mpyhu_eq : unsignedProduct a.toNat (hi b).toNat = BitVec.ofNat 32 (a.toNat * (b.toNat / 65536)) := by
  rw [unsignedProduct, hi_toNat]
theorem mpyhs_eq : signedProduct a.toInt (hi b).toInt <<< 16 =
    BitVec.ofInt 32 (a.toInt * (b.toInt / 65536) * 65536) := by
  rw [shiftLeft_eq_mul, mpyh_eq, BitVec.mul_comm, BitVec.ofInt_mul (a.toInt * _)]
  rfl

end Products

/-- Settles O17. -/
theorem halfByHalfProductRules : Obligations.HalfByHalfProductRules := by
  unfold Obligations.HalfByHalfProductRules
  exact ⟨binaryRule_of mpyll_eq, binaryRule_of mpyllu_eq, binaryRule_of mpylh_eq, binaryRule_of mpylhu_eq,
    binaryRule_of mpyhh_eq, binaryRule_of mpyhhu_eq⟩

/-- Settles O18. -/
theorem wordByHalfProductRules : Obligations.WordByHalfProductRules := by
  unfold Obligations.WordByHalfProductRules
  exact ⟨binaryRule_of mpyl_eq, binaryRule_of mpylu_eq, binaryRule_of mpyh_eq, binaryRule_of mpyhu_eq,
    binaryRule_of mpyhs_eq⟩

theorem putGr_gr (s : State) {t : GR} (ht : t ≠ 0) (v : Word) (pc : Int) : (putGr s t v pc).gr[t] = v := by
  simp [putGr, ht]

/-- A product of two signed halves fits a signed word (R163). -/
theorem toInt_ofInt_mul {x y : Int} (hx : -32768 ≤ x ∧ x < 32768) (hy : -32768 ≤ y ∧ y < 32768) :
    (BitVec.ofInt 32 (x * y)).toInt = x * y := by
  have hlow : -1073741824 ≤ x * y := by nlinarith
  have hhigh : x * y ≤ 1073741824 := by nlinarith
  rw [BitVec.toInt_ofInt, Int.bmod_eq_of_le] <;> omega

/-- A product of two unsigned halves fits an unsigned word (R163). -/
theorem toNat_ofNat_mul {x y : Nat} (hx : x < 65536) (hy : y < 65536) : (BitVec.ofNat 32 (x * y)).toNat = x * y := by
  have h : x * y ≤ 65535 * 65535 := Nat.mul_le_mul (by omega) (by omega)
  rw [BitVec.toNat_ofNat, Nat.mod_eq_of_lt (by omega)]

/-- Settles O19. -/
theorem halfByHalfProductsAreExact : Obligations.HalfByHalfProductsAreExact := by
  unfold Obligations.HalfByHalfProductsAreExact
  intro t s1 a s ht h
  obtain ⟨⟨hll, -⟩, ⟨hllu, -⟩, ⟨hlh, -⟩, ⟨hlhu, -⟩, ⟨hhh, -⟩, ⟨hhhu, -⟩⟩ := halfByHalfProductRules
  have hlo (v : Word) : -32768 ≤ (v.setWidth 16).toInt ∧ (v.setWidth 16).toInt < 32768 :=
    ⟨BitVec.le_toInt _, BitVec.toInt_lt⟩
  have hhi (v : Word) : -32768 ≤ v.toInt / 65536 ∧ v.toInt / 65536 < 32768 := by
    rw [← hi_toInt]
    exact ⟨BitVec.le_toInt _, BitVec.toInt_lt⟩
  have hlou (v : Word) : v.toNat % 65536 < 65536 := Nat.mod_lt _ (by decide)
  have hhiu (v : Word) : v.toNat / 65536 < 65536 := by
    rw [← hi_toNat]
    exact (hi v).isLt
  refine ⟨⟨_, hll t s1 a s h, ?_⟩, ⟨_, hlh t s1 a s h, ?_⟩, ⟨_, hhh t s1 a s h, ?_⟩, ⟨_, hllu t s1 a s h, ?_⟩,
    ⟨_, hlhu t s1 a s h, ?_⟩, ⟨_, hhhu t s1 a s h, ?_⟩⟩ <;> rw [putGr_gr s ht]
  · exact toInt_ofInt_mul (hlo _) (hlo _)
  · exact toInt_ofInt_mul (hlo _) (hhi _)
  · exact toInt_ofInt_mul (hhi _) (hhi _)
  · exact toNat_ofNat_mul (hlou _) (hlou _)
  · exact toNat_ofNat_mul (hlou _) (hhiu _)
  · exact toNat_ofNat_mul (hhiu _) (hhiu _)

/-- The low half and the high half of `b`, each times `a`, make the whole product modulo 2^32. -/
theorem mul_halves (a b : Word) :
    BitVec.ofNat 32 (a.toNat * (b.toNat % 65536)) + BitVec.ofInt 32 (a.toInt * (b.toInt / 65536) * 65536) = a * b := by
  have hhalves : ((b.toNat % 65536 : Nat) : Int) + b.toInt / 65536 * 65536 = b.toInt := by
    rw [BitVec.toInt_eq_toNat_cond]
    split <;> omega
  calc
    _ = a * BitVec.ofInt 32 (b.toNat % 65536 : Nat) + a * BitVec.ofInt 32 (b.toInt / 65536 * 65536) := by
      rw [BitVec.ofNat_mul, Int.mul_assoc, BitVec.ofInt_mul, BitVec.ofInt_natCast, BitVec.ofNat_toNat,
        BitVec.setWidth_eq, BitVec.ofInt_toInt]
    _ = a * b := by rw [← BitVec.mul_add, ← BitVec.ofInt_add, hhalves, BitVec.ofInt_toInt]

/-- Settles O20. -/
theorem mpyluPlusMpyhsIsTheFullProduct : Obligations.MpyluPlusMpyhsIsTheFullProduct := by
  unfold Obligations.MpyluPlusMpyhsIsTheFullProduct
  intro t u s1 a s ht hu h
  obtain ⟨-, ⟨hmpylu, -⟩, -, -, ⟨hmpyhs, -⟩⟩ := wordByHalfProductRules
  refine ⟨_, _, hmpylu t s1 a s h, hmpyhs u s1 a s h, ?_⟩
  rw [putGr_gr s ht, putGr_gr s hu, mul_halves]

end Sys2Proof.Machine
end

section
/-! PROOFS, the control operations and the operations without operands (spec/42_ctrl.md, spec/44_misc.md), STOP in a
bundle, and the reset states. -/

namespace Sys2Proof.Machine

open Sys2Proof.Rules

/-! ### CTRL -/

theorem indirectTarget_eq (s : State) : s.indirectTarget = (s.gr[63].toNat : Int) := rfl

/-- Settles O21. -/
theorem relativeJumpAndCallRules : Obligations.RelativeJumpAndCallRules := by
  unfold Obligations.RelativeJumpAndCallRules
  refine ⟨fun off s => ?_, fun off s => ?_, onlyBranch_of_row (i := .goto 0) rfl, onlyBranch_of_row (i := .call 0) rfl⟩
  · have hexec : exec (.goto off) s = .next (s.jump (s.relTarget off)) := rfl
    rw [hexec, relTarget_eq]
    rfl
  · have hexec : exec (.call off) s = .next ((s.writeGr 63 s.linkValue).jump (s.relTarget off)) := rfl
    rw [hexec, relTarget_eq, linkValue_eq, writeGr_jump_eq_putGr]

/-- Settles O22. -/
theorem indirectJumpAndCallRules : Obligations.IndirectJumpAndCallRules := by
  unfold Obligations.IndirectJumpAndCallRules
  refine ⟨fun s h => reading_of_readable _ h, fun s h => ?_, readsThese_of_access rfl rfl, readsThese_of_access rfl rfl,
    anyBits_of_row (i := .igoto) rfl, anyBits_of_row (i := .icall) rfl⟩
  have hexec : exec .icall s = .next ((s.writeGr 63 s.linkValue).jump s.indirectTarget) := reading_of_readable _ h
  rw [hexec, linkValue_eq, writeGr_jump_eq_putGr, indirectTarget_eq]

/-- Settles O23. -/
theorem conditionalBranchRules : Obligations.ConditionalBranchRules := by
  unfold Obligations.ConditionalBranchRules
  exact ⟨branchRule_of (g := fun c => c) fun _ => Iff.rfl, branchRule_of (g := fun c => !c) fun _ => by simp⟩

/-- Settles O24. -/
theorem returnRule : Obligations.ReturnRule := by
  unfold Obligations.ReturnRule
  refine ⟨fun t frame s h => ?_, fun t frame => readsThese_of_access rfl rfl, onlyBranch_of_row (i := .ret 0 0) rfl⟩
  have hexec : exec (.ret t frame) s =
      .next ((s.writeGr t (s.readGr t + BitVec.ofInt 32 frame)).jump s.indirectTarget) := reading_of_readable _ h
  rw [hexec, writeGr_jump_eq_putGr, readGr_eq_gval, indirectTarget_eq]

/-- Settles O25. -/
theorem unsupportedOperationRules : Obligations.UnsupportedOperationRules := by
  unfold Obligations.UnsupportedOperationRules
  exact ⟨fun _ => rfl, fun _ _ => rfl, fun _ _ => rfl, anyBits_of_row (i := .rfi) rfl,
    anyBits_of_row (i := .send none) rfl, anyBits_of_row (i := .recv none) rfl⟩

/-- A syllable with the opcode of XNOP is one, with the count of its branch form. -/
theorem decodeSyllable_xnop {w : Syllable} (rest : List Syllable) (h : w.opcode = 0b0101001#7) :
    decodeSyllable w rest = .ok (.xnop w.cycles, false) := decodeSyllable_eq_row (i := .xnop none) rest h

/-- Settles O26. -/
theorem noOperationRules : Obligations.NoOperationRules := by
  unfold Obligations.NoOperationRules
  refine ⟨fun _ => rfl, fun _ _ => rfl, anyBits_of_row (i := .nop) rfl, fun w rest hop hsw => ?_,
    fun d o b lf rest => ?_⟩
  · rw [decodeSyllable_xnop rest (opcodeBits_eq w ▸ hop)]
    have hbranch : w.switch ≠ .branch := mt (switch_eq_iff w).2.2.1.1 hsw
    cases h : w.switch <;> simp_all [Syllable.cycles]
  · have hxnop := decodeSyllable_xnop rest (branchWord_opcode 0b0101001#7 (grOf d) o (brOf b))
    refine ((offForm_sameFields ..).decodeSyllable_eq (sameFields_rest rest)).trans (hxnop.trans ?_)
    simp [Syllable.cycles]

/-- Settles O29. -/
theorem prefetchRule : Obligations.PrefetchRule := by
  unfold Obligations.PrefetchRule
  exact ⟨fun off s1 s h => reading_of_readable _ h, fun off s1 => readsThese_of_access rfl rfl,
    onlyImmediate_of_row (i := .pft 0 0) rfl⟩

theorem reserved_exec_and_row {i : Instr} (hi : i ∈ reservedOperations) :
    (∀ s, exec i s = raised s (.illegalOpcode 0 i.opcode)) ∧ i.row = .free fun _ _ => i := by
  simp only [reservedOperations, List.mem_cons, List.not_mem_nil, or_false] at hi
  rcases hi with rfl | rfl | rfl | rfl | rfl | rfl | rfl | rfl | rfl | rfl | rfl | rfl | rfl | rfl | rfl | rfl | rfl |
    rfl | rfl | rfl | rfl | rfl | rfl | rfl <;>
    exact ⟨fun _ => rfl, rfl⟩

/-- Settles O34: the codes are the opcodes of the operations. -/
theorem reservedOperationsRaiseIllegalOpcode : Obligations.ReservedOperationsRaiseIllegalOpcode := by
  unfold Obligations.ReservedOperationsRaiseIllegalOpcode
  intro p hp
  have hop : ∀ q ∈ reservedCodes.zip reservedOperations, q.2.opcode = q.1 := by decide
  obtain ⟨hexec, hrow⟩ := reserved_exec_and_row (List.of_mem_zip hp).2
  rw [← hop p hp]
  exact ⟨hexec, anyBits_of_row hrow⟩

/-! ### STOP -/

theorem stop_halts {i : Instr} {s : State} (hh : s.halted = false) (hq : (outcome i s).fault = none) :
    (outcome i s).halted = true ↔ i = .stop := by
  constructor
  · intro h
    by_contra hi
    rw [(completes_of_fault_eq_none hq).halted hi, hh] at h
    cases h
  · rintro rfl
    rfl

/-- Settles O31: of the operations that a step commits only STOP leaves the machine halted. -/
theorem stopRule : Obligations.StopRule := by
  unfold Obligations.StopRule
  refine ⟨fun _ => rfl, anyBits_of_row (i := .stop) rfl, fun s t b is hb hdec hstep ht => ?_⟩
  rw [step_of_decode_ok hb hdec] at hstep
  rcases runBundle_cases is s with ⟨c, hc⟩ | ⟨-, hq, hrun⟩
  · cases hc.symm.trans hstep
    cases ht
  · cases hrun.symm.trans hstep
    rw [commitAll_halted, State.advance_halted, hb.1, Bool.false_or, List.any_eq_true]
    constructor
    · rintro ⟨i, hi, hhalted⟩
      exact (stop_halts hb.1 (hq i hi)).1 hhalted ▸ hi
    · exact fun hmem => ⟨.stop, hmem, rfl⟩

/-! ### Fetch -/

/-- Settles O41. -/
theorem fetchRule : Obligations.FetchRule := by
  unfold Obligations.FetchRule
  refine ⟨fun s t h hstep => ?_, fun s t c h hstep => ?_, fun s hh hf hpc => ?_, fun s h0 hlt => ?_⟩
  · rw [step_of_halted h] at hstep
    cases hstep
  · rw [(step_cases hstep).2.1] at h
    cases h
  · have hfetch : s.fetch = .error (.imemRange s.pc) := by
      rw [fetch_eq]
      split
      · rfl
      · rename_i h0
        rw [List.getElem?_eq_none ((Int.le_toNat (not_lt.1 h0)).2 (hpc.resolve_left h0))]
    rw [step_of_running hh hf, State.cycle, hfetch]
    rfl
  · have hlt' : s.pc.toNat < s.imem.length := (Int.toNat_lt h0).2 hlt
    refine ⟨s.imem[s.pc.toNat], List.getElem?_eq_getElem hlt', ?_⟩
    rw [fetch_eq, if_neg (not_lt.2 h0), List.getElem?_eq_getElem hlt']

/-! ### Registers, reset and launch -/

/-- Settles O48. -/
theorem registerZeroIsHardwired : Obligations.RegisterZeroIsHardwired := by
  unfold Obligations.RegisterZeroIsHardwired
  refine ⟨readGr_zero, writeGr_zero, fun s i k v hi => ?_⟩
  simp only [readGr_writeGr, hi, ne_eq, not_false_eq_true, and_true]

/-- Settles O57. -/
theorem resetLeaves : Obligations.ResetLeaves := by
  unfold Obligations.ResetLeaves
  simp [State.reset, State.bareReset, gval, State.byteAt, Memory.read]

/-- Settles O40. -/
theorem printedWordsDecode : Obligations.PrintedWordsDecode := by
  unfold Obligations.PrintedWordsDecode
  decide +kernel

/-! ### The launch -/

section Foldl

variable {σ α β : Type} {f : σ → α → σ} {get : σ → β} {hits : α → Prop}

/-- What no step of a list changes. -/
theorem foldl_get_of_miss (hmiss : ∀ s p, ¬ hits p → get (f s p) = get s) {ps : List α} (hps : ∀ p ∈ ps, ¬ hits p)
    (s : σ) : get (ps.foldl f s) = get s := by
  induction ps generalizing s with
  | nil => rfl
  | cons p ps ih =>
    obtain ⟨hp, hps'⟩ := List.forall_mem_cons.1 hps
    exact (ih hps' (f s p)).trans (hmiss s p hp)

/-- The last step that changes it decides. -/
theorem foldl_get_of_last (hmiss : ∀ s p, ¬ hits p → get (f s p) = get s) (pre : List α) (p : α) {post : List α}
    (hpost : ∀ q ∈ post, ¬ hits q) (s : σ) :
    get ((pre ++ p :: post).foldl f s) = get (f (pre.foldl f s) p) := by
  rw [List.foldl_append, List.foldl_cons, foldl_get_of_miss hmiss hpost]

end Foldl

/-- Before any register is named. -/
def launchBase (l : Launch) : State :=
  { State.bareReset with
    imem := l.program
    dmemBytes := l.dmemBytes
    dmem := l.dmem.foldl (fun m c => m.write c.1 c.2) [] }

/-- After the GR that the launch names. -/
def launchGrs (l : Launch) : State := l.gr.foldl (fun s p => s.writeGr p.1 p.2) (launchBase l)

theorem launch_eq (l : Launch) : State.launch l = l.br.foldl (fun s p => s.writeBr p.1 p.2) (launchGrs l) := rfl

/-- What naming registers leaves as it was. -/
theorem launch_get_of_keeps {β : Type} (get : State → β) (hgr : ∀ s (i : GR) v, get (s.writeGr i v) = get s)
    (hbr : ∀ s (i : BR) c, get (s.writeBr i c) = get s) (l : Launch) : get (State.launch l) = get (launchBase l) :=
  calc
    get (State.launch l) = get (launchGrs l) := foldl_get_of_miss
      (f := fun (s : State) (p : BR × Bool) => s.writeBr p.1 p.2)
      (hits := fun _ => False) (fun s p _ => hbr s p.1 p.2) (fun _ _ => id) _
    _ = get (launchBase l) := foldl_get_of_miss
      (f := fun (s : State) (p : GR × Word) => s.writeGr p.1 p.2)
      (hits := fun _ => False) (fun s p _ => hgr s p.1 p.2) (fun _ _ => id) _

/-- Naming BR leaves the GR as they were. -/
theorem launch_gr (l : Launch) (k : GR) : (State.launch l).gr[k] = (launchGrs l).gr[k] :=
  foldl_get_of_miss (f := fun (s : State) (p : BR × Bool) => s.writeBr p.1 p.2) (get := fun s => s.gr[k])
    (hits := fun _ => False) (fun _ _ _ => rfl) (fun _ _ => id) _

theorem launch_grWritten (l : Launch) (k : GR) : (State.launch l).grWritten[k] = (launchGrs l).grWritten[k] :=
  foldl_get_of_miss (f := fun (s : State) (p : BR × Bool) => s.writeBr p.1 p.2) (get := fun s => s.grWritten[k])
    (hits := fun _ => False) (fun _ _ _ => rfl) (fun _ _ => id) _

/-- Naming GR leaves the BR as they were, unwritten. -/
theorem launchGrs_brWritten (l : Launch) (k : BR) : (launchGrs l).brWritten[k] = false := by
  have hbase : (launchGrs l).brWritten = (launchBase l).brWritten :=
    foldl_get_of_miss (f := fun (s : State) (p : GR × Word) => s.writeGr p.1 p.2) (get := State.brWritten)
      (hits := fun _ => False) (fun s p _ => s.writeGr_brWritten p.1 p.2) (fun _ _ => id) _
  rw [hbase]
  simp [launchBase, State.bareReset]

theorem launch_dmem (l : Launch) : (State.launch l).dmem = l.dmem.foldl (fun m c => Memory.write m c.1 c.2) [] :=
  launch_get_of_keeps State.dmem State.writeGr_dmem State.writeBr_dmem l

/-! A pair that names another register or byte misses this one. -/

theorem writeGr_miss (k : GR) (s : State) (p : GR × Word) (h : ¬ p.1 = k) :
    (s.writeGr p.1 p.2).gr[k] = s.gr[k] ∧ (s.writeGr p.1 p.2).grWritten[k] = s.grWritten[k] :=
  writeGr_frame p.2 rfl k (.inl (by simpa using Ne.symm h))

theorem writeBr_miss (k : BR) (s : State) (p : BR × Bool) (h : ¬ p.1 = k) :
    (s.writeBr p.1 p.2).br[k] = s.br[k] ∧ (s.writeBr p.1 p.2).brWritten[k] = s.brWritten[k] := by
  rw [writeBr_getElem, writeBr_written_getElem, if_neg (Ne.symm h), if_neg (Ne.symm h)]
  exact ⟨rfl, rfl⟩

theorem write_miss (a : Nat) (m : Memory) (c : Host.Cell) (h : ¬ c.1 = a) : (m.write c.1 c.2).read a = m.read a := by
  rw [Memory.read_write, if_neg (Ne.symm h)]

section Launch

variable {l : Launch}

theorem launch_gr_named {pre post : List (GR × Word)} {i : GR} {v : Word} (hl : l.gr = pre ++ (i, v) :: post)
    (h0 : i ≠ 0) (hpost : ∀ p ∈ post, p.1 ≠ i) :
    (State.launch l).gr[i] = v ∧ (State.launch l).grWritten[i] = true := by
  rw [launch_gr, launch_grWritten, launchGrs, hl,
    foldl_get_of_last (get := fun s : State => s.gr[i]) (fun s p h => (writeGr_miss i s p h).1) pre _ hpost,
    foldl_get_of_last (get := fun s : State => s.grWritten[i]) (fun s p h => (writeGr_miss i s p h).2) pre _ hpost,
    writeGr_getElem, writeGr_written_getElem, if_pos ⟨rfl, h0⟩, if_pos ⟨rfl, h0⟩]
  exact ⟨rfl, rfl⟩

theorem launch_gr_unnamed {i : GR} (hl : ∀ p ∈ l.gr, p.1 ≠ i) : (State.launch l).grWritten[i] = false := by
  rw [launch_grWritten, launchGrs,
    foldl_get_of_miss (get := fun s : State => s.grWritten[i]) (fun s p h => (writeGr_miss i s p h).2) hl]
  simp [launchBase, State.bareReset]

theorem launch_br_named {pre post : List (BR × Bool)} {i : BR} {c : Bool} (hl : l.br = pre ++ (i, c) :: post)
    (hpost : ∀ p ∈ post, p.1 ≠ i) : (State.launch l).br[i] = c ∧ (State.launch l).brWritten[i] = true := by
  rw [launch_eq, hl,
    foldl_get_of_last (get := fun s : State => s.br[i]) (fun s p h => (writeBr_miss i s p h).1) pre _ hpost,
    foldl_get_of_last (get := fun s : State => s.brWritten[i]) (fun s p h => (writeBr_miss i s p h).2) pre _ hpost,
    writeBr_getElem, writeBr_written_getElem, if_pos rfl, if_pos rfl]
  exact ⟨rfl, rfl⟩

theorem launch_br_unnamed {i : BR} (hl : ∀ p ∈ l.br, p.1 ≠ i) : (State.launch l).brWritten[i] = false := by
  rw [launch_eq,
    foldl_get_of_miss (get := fun s : State => s.brWritten[i]) (fun s p h => (writeBr_miss i s p h).2) hl]
  exact launchGrs_brWritten l i

theorem launch_byte_named {pre post : List Host.Cell} {a : Nat} {b : Byte} (hl : l.dmem = pre ++ (a, b) :: post)
    (hpost : ∀ p ∈ post, p.1 ≠ a) : (State.launch l).byteAt a = some b := by
  rw [State.byteAt, launch_dmem, hl,
    foldl_get_of_last (get := fun m : Memory => m.read a) (write_miss a) pre _ hpost, Memory.read_write, if_pos rfl]

theorem launch_byte_unnamed {a : Nat} (hl : ∀ p ∈ l.dmem, p.1 ≠ a) : (State.launch l).byteAt a = none := by
  rw [State.byteAt, launch_dmem, foldl_get_of_miss (get := fun m : Memory => m.read a) (write_miss a) hl]
  rfl

end Launch

/-- Settles O58. -/
theorem launchNamesTheInitialState : Obligations.LaunchNamesTheInitialState := by
  unfold Obligations.LaunchNamesTheInitialState
  exact fun l => ⟨launch_get_of_keeps State.imem State.writeGr_imem State.writeBr_imem l,
    launch_get_of_keeps State.dmemBytes State.writeGr_dmemBytes State.writeBr_dmemBytes l,
    launch_get_of_keeps State.pc State.writeGr_pc State.writeBr_pc l,
    launch_get_of_keeps State.halted State.writeGr_halted State.writeBr_halted l,
    launch_get_of_keeps State.fault State.writeGr_fault State.writeBr_fault l,
    fun _ _ _ _ => launch_gr_named, fun _ _ => launch_gr_unnamed, fun _ _ _ _ => launch_br_named,
    fun _ => launch_br_unnamed, fun _ _ _ _ => launch_byte_named, fun _ => launch_byte_unnamed⟩

end Sys2Proof.Machine
end

section
/-! PROOFS, the MEM operations (spec/43_mem.md, spec/20_memory.md): the checks of an access, the big-endian value of the
bytes, the rules of the loads and the stores, and a load after a store. -/

namespace Sys2Proof.Machine

open Sys2Proof.Rules

/-! ### The value of bytes -/

theorem bigEndian_cons (b : Byte) (bs : List Byte) :
    bigEndian (b :: bs) = b.toNat * 256 ^ bs.length + bigEndian bs := by
  have hacc (n : Nat) (cs : List Byte) :
      cs.foldl (fun acc b => acc * 256 + b.toNat) n = n * 256 ^ cs.length + bigEndian cs := by
    induction cs generalizing n with
    | nil => simp [bigEndian]
    | cons c cs ih =>
      simp only [bigEndian, List.foldl_cons, List.length_cons] at ih ⊢
      rw [ih, ih (0 * 256 + c.toNat), pow_succ]
      ring
  simpa [bigEndian] using hacc b.toNat bs

theorem bigEndian_lt (bs : List Byte) : bigEndian bs < 256 ^ bs.length := by
  induction bs with
  | nil => decide
  | cons b bs ih =>
    rw [bigEndian_cons, List.length_cons, pow_succ]
    have := Nat.mul_le_mul_right (256 ^ bs.length) (Nat.le_of_lt_succ b.isLt)
    omega

/-- At most four bytes fit in a word. -/
theorem joinBig_toNat {bs : List Byte} (h : bs.length ≤ 4) : (joinBig bs).toNat = bigEndian bs := by
  induction bs with
  | nil => rfl
  | cons b bs ih =>
    have hlen : bs.length ≤ 3 := Nat.le_of_succ_le_succ h
    have hlow : bigEndian bs < 2 ^ (8 * bs.length) := by
      rw [pow_mul]
      exact bigEndian_lt bs
    have hfit : b.toNat * 2 ^ (8 * bs.length) < 2 ^ 32 :=
      calc
        b.toNat * 2 ^ (8 * bs.length) ≤ b.toNat * 2 ^ 24 := by gcongr <;> omega
        _ < 2 ^ 32 := by have := b.isLt; omega
    rw [joinBig, BitVec.toNat_or, ih (by omega), BitVec.toNat_shiftLeft, BitVec.toNat_setWidth_of_le (by omega),
      Nat.shiftLeft_eq, Nat.mod_eq_of_lt hfit, ← Nat.shiftLeft_eq, ← Nat.shiftLeft_add_eq_or_of_lt hlow,
      Nat.shiftLeft_eq, bigEndian_cons, pow_mul]
    rfl

theorem joinBig_eq_ofNat {bs : List Byte} (h : bs.length ≤ 4) : joinBig bs = BitVec.ofNat 32 (bigEndian bs) := by
  rw [← joinBig_toNat h, BitVec.ofNat_toNat, BitVec.setWidth_eq]

/-! The extensions of a loaded part, as the rules write them. -/

theorem sext16_joinBig {bs : List Byte} (h : bs.length = 2) :
    sext16 (joinBig bs) = BitVec.ofInt 32 (Int.bmod (bigEndian bs) 65536) := by
  rw [sext16_eq, joinBig_toNat (by omega)]

theorem sext8_joinBig {bs : List Byte} (h : bs.length = 1) :
    sext8 (joinBig bs) = BitVec.ofInt 32 (Int.bmod (bigEndian bs) 256) := by
  rw [sext8_eq, joinBig_toNat (by omega)]

theorem zext16_joinBig {bs : List Byte} (h : bs.length = 2) : zext16 (joinBig bs) = BitVec.ofNat 32 (bigEndian bs) := by
  have hlt : bigEndian bs < 2 ^ 16 := by simpa [h] using bigEndian_lt bs
  rw [zext16, ← BitVec.ofNat_toNat (x := (joinBig bs).setWidth 16), BitVec.toNat_setWidth, joinBig_toNat (by omega),
    Nat.mod_eq_of_lt hlt]

theorem zext8_joinBig {bs : List Byte} (h : bs.length = 1) : zext8 (joinBig bs) = BitVec.ofNat 32 (bigEndian bs) := by
  have hlt : bigEndian bs < 2 ^ 8 := by simpa [h] using bigEndian_lt bs
  rw [zext8, ← BitVec.ofNat_toNat (x := (joinBig bs).setWidth 8), BitVec.toNat_setWidth, joinBig_toNat (by omega),
    Nat.mod_eq_of_lt hlt]

/-! ### The checks of an access -/

section Access

variable {s : State} {a : Word} {w : Width}

theorem ea_eq_addr (s : State) (s1 : GR) (off : Word) : s.ea s1 off = addr s s1 off := by
  rw [State.ea, readGr_eq_gval, addr]

theorem inDmem_iff : s.inDmem a w = true ↔ Inside s a w.bytes := by simp [State.inDmem, Inside, Params.dmemBase]

theorem accessFault_of_inside (ha : a.toNat % w.bytes = 0) (hin : Inside s a w.bytes) : s.accessFault a w = none :=
  accessFault_eq_none.2 ⟨ha, inDmem_iff.2 hin⟩

theorem accessFault_of_misaligned (ha : a.toNat % w.bytes ≠ 0) :
    s.accessFault a w = some (.misaligned a w.bytes) := by
  rw [State.accessFault, misalignedFaults_eq, if_pos (bne_iff_ne.2 ha)]

theorem accessFault_of_outside (ha : a.toNat % w.bytes = 0) (hout : ¬ Inside s a w.bytes) :
    s.accessFault a w = some (.dmemRange a w.bytes) := by
  rw [State.accessFault, misalignedFaults_eq, if_neg (by simp [ha]), accessAddr_eq, if_neg (mt inDmem_iff.1 hout)]

end Access

/-! ### Loads -/

section Load

variable {s : State} {w : Width} {ext : Word → Word} {t : GR} {off : Word} {s1 : GR}

theorem loadOp_of_fault {c : Cause} (h : Readable s [s1] []) (hc : s.accessFault (addr s s1 off) w = some c) :
    loadOp w ext t off s1 s = raised s c := by
  rw [loadOp, reading_of_readable _ h, State.memRead, ea_eq_addr, hc]
  rfl

theorem loadOp_of_bytes {bs : List Byte} (h : Readable s [s1] []) (hf : s.accessFault (addr s s1 off) w = none)
    (hbs : s.dmem.readBytes (addr s s1 off).toNat w.bytes = some bs) :
    loadOp w ext t off s1 s = .next (putGr s t (ext (joinBig bs)) (s.pc + 1)) := by
  rw [loadOp, reading_of_readable _ h, State.memRead, ea_eq_addr, hf, accessAddr_eq, hbs, ← writeGr_advance_eq_putGr]
  rfl

theorem loadOp_of_unwritten (h : Readable s [s1] []) (hf : s.accessFault (addr s s1 off) w = none)
    (hbs : s.dmem.readBytes (addr s s1 off).toNat w.bytes = none) :
    loadOp w ext t off s1 s = raised s (.unwrittenRead (.dmem (addr s s1 off))) := by
  rw [loadOp, reading_of_readable _ h, State.memRead, ea_eq_addr, hf, accessAddr_eq, hbs]
  rfl

/-- One byte without a value leaves the bytes of the access without one. -/
theorem readBytes_eq_none {m : Memory} {a n k : Nat} (hk : k < n) (h : m.read (a + k) = none) :
    m.readBytes a n = none := by
  refine Option.eq_none_iff_forall_ne_some.2 fun bs hbs => ?_
  obtain ⟨hlen, hbytes⟩ := Memory.readBytes_eq_some.1 hbs
  rw [hbytes k hk, List.getElem?_eq_none_iff] at h
  omega

/-- Type X. -/
theorem loadRule_of {mk : GR → Word → GR → Instr} {op : BitVec 7} {f : Nat → Word} (w : Width) {ext : Word → Word}
    (hext : ∀ bs : List Byte, bs.length = w.bytes → ext (joinBig bs) = f (bigEndian bs))
    (hexec : ∀ t off s1 s, exec (mk t off s1) s = loadOp w ext t off s1 s := by intros; rfl)
    (hreads : ∀ t off s1, (access (mk t off s1)).grReads = [s1] ∧ (access (mk t off s1)).brReads = [] := by
      intros; exact ⟨rfl, rfl⟩)
    (hrow : (mk 0 0 0).row = .ofTypeX mk := by rfl) (hop : (mk 0 0 0).opcode = op := by rfl) :
    LoadRule op mk w.bytes f := by
  refine ⟨fun t off s1 s bs h ha hin hlen hbs => ?_, fun t off s1 => ?_, fun t off s1 s h ha => ?_,
    fun t off s1 s h ha hout => ?_, fun t off s1 s k h ha hin hk hbyte => ?_, hop ▸ onlyImmediate_of_row hrow⟩
  · rw [hexec, loadOp_of_bytes h (accessFault_of_inside ha hin) (Memory.readBytes_eq_some.2 ⟨hlen, hbs⟩), hext bs hlen]
  · exact readsThese_of_access (hreads t off s1).1 (hreads t off s1).2
  · rw [hexec, loadOp_of_fault h (accessFault_of_misaligned ha)]
  · rw [hexec, loadOp_of_fault h (accessFault_of_outside ha hout)]
  · rw [hexec, loadOp_of_unwritten h (accessFault_of_inside ha hin) (readBytes_eq_none hk hbyte)]

end Load

theorem ldwRule : LoadRule 0b0010001 .ldw 4 fun n => BitVec.ofNat 32 n :=
  loadRule_of .word (ext := id) fun _ h => joinBig_eq_ofNat h.le

theorem ldhRule : LoadRule 0b0010010 .ldh 2 fun n => BitVec.ofInt 32 (Int.bmod n 65536) :=
  loadRule_of .half (ext := sext16) fun _ => sext16_joinBig

theorem ldhuRule : LoadRule 0b0010011 .ldhu 2 fun n => BitVec.ofNat 32 n :=
  loadRule_of .half (ext := zext16) fun _ => zext16_joinBig

theorem ldbRule : LoadRule 0b0010100 .ldb 1 fun n => BitVec.ofInt 32 (Int.bmod n 256) :=
  loadRule_of .byte (ext := sext8) fun _ => sext8_joinBig

theorem ldbuRule : LoadRule 0b0010101 .ldbu 1 fun n => BitVec.ofNat 32 n :=
  loadRule_of .byte (ext := zext8) fun _ => zext8_joinBig

/-- Settles O27. -/
theorem loadRules : Obligations.LoadRules := by
  unfold Obligations.LoadRules
  exact ⟨ldwRule, ldhRule, ldhuRule, ldbRule, ldbuRule⟩

/-- A load of a byte without a value, of any width. -/
theorem exec_of_unwrittenByte {op : BitVec 7} {mk : GR → Word → GR → Instr} {n : Nat} {f : Nat → Word}
    (hrule : LoadRule op mk n f) (t : GR) (off : Word) (s1 : GR) (s : State) (k : Nat) (h : Readable s [s1] [])
    (ha : (addr s s1 off).toNat % n = 0) (hin : Inside s (addr s s1 off) n) (hk : k < n)
    (hbyte : s.byteAt ((addr s s1 off).toNat + k) = none) :
    exec (mk t off s1) s = raised s (.unwrittenRead (.dmem (addr s s1 off))) := by
  obtain ⟨-, -, -, -, hunwritten, -⟩ := hrule
  exact hunwritten t off s1 s k h ha hin hk hbyte

/-- Settles O47: the second part is the clause of the load rules on a byte without a value. -/
theorem unwrittenReadRule : Obligations.UnwrittenReadRule := by
  unfold Obligations.UnwrittenReadRule
  refine ⟨fun i s p => exec_of_firstUnread, fun p hp => ?_⟩
  simp only [List.mem_cons, List.not_mem_nil, or_false] at hp
  rcases hp with rfl | rfl | rfl | rfl | rfl
  · exact exec_of_unwrittenByte ldwRule
  · exact exec_of_unwrittenByte ldhRule
  · exact exec_of_unwrittenByte ldhuRule
  · exact exec_of_unwrittenByte ldbRule
  · exact exec_of_unwrittenByte ldbuRule

/-! ### Stores -/

section Store

variable {s : State} {w : Width} {off : Word} {s1 s2 : GR}

theorem storeOp_of_fault {c : Cause} (h : Readable s [s1, s2] []) (hc : s.accessFault (addr s s1 off) w = some c) :
    storeOp w off s1 s2 s = raised s c := by
  rw [storeOp, reading_of_readable _ h, State.memWrite, ea_eq_addr, hc]
  rfl

theorem storeInto_read_outside (m : Memory) {a : Nat}
    (ha : a < (addr s s1 off).toNat ∨ (addr s s1 off).toNat + w.bytes ≤ a) :
    (s.storeInto w off s1 s2 m).read a = m.read a := by
  rw [State.storeInto, ea_eq_addr]
  exact Memory.read_writeBytes_outside _ _ _ _ (by rwa [splitBytes_length])

theorem storeInto_read_inside (m : Memory) {k : Nat} (hk : k < w.bytes) :
    (s.storeInto w off s1 s2 m).read ((addr s s1 off).toNat + k) =
      some ((gval s s2).extractLsb' (8 * (w.bytes - 1 - k)) 8) := by
  rw [State.storeInto, ea_eq_addr, readGr_eq_gval, Memory.read_writeBytes, splitBytes_length,
    if_pos ⟨Nat.le_add_right .., Nat.add_lt_add_left hk _⟩, Nat.add_sub_cancel_left]
  exact splitBig_getElem? _ _ _ hk

/-- Type XI. -/
theorem storeRule_of {mk : Word → GR → GR → Instr} {op : BitVec 7} (w : Width)
    (hexec : ∀ off s1 s2 s, exec (mk off s1 s2) s = storeOp w off s1 s2 s := by intros; rfl)
    (hreads : ∀ off s1 s2, (access (mk off s1 s2)).grReads = [s1, s2] ∧ (access (mk off s1 s2)).brReads = [] := by
      intros; exact ⟨rfl, rfl⟩)
    (hrow : (mk 0 0 0).row = .ofTypeXI mk := by rfl) (hop : (mk 0 0 0).opcode = op := by rfl) :
    StoreRule op mk w.bytes := by
  refine ⟨fun off s1 s2 s h ha hin => ?_, fun off s1 s2 => ?_, fun off s1 s2 s h ha => ?_,
    fun off s1 s2 s h ha hout => ?_, hop ▸ onlyImmediate_of_row hrow⟩
  · refine ⟨s.storeInto w off s1 s2 s.dmem, ?_, fun a => storeInto_read_outside _, fun k => storeInto_read_inside _⟩
    have hf : s.accessFault (s.ea s1 off) w = none := ea_eq_addr s s1 off ▸ accessFault_of_inside ha hin
    rw [hexec, storeOp_of_ready (unwritten_eq_none_iff_readable.2 h) hf]
    rfl
  · exact readsThese_of_access (hreads off s1 s2).1 (hreads off s1 s2).2
  · rw [hexec, storeOp_of_fault h (accessFault_of_misaligned ha)]
  · rw [hexec, storeOp_of_fault h (accessFault_of_outside ha hout)]

end Store

theorem stwRule : StoreRule 0b0010110 .stw 4 := storeRule_of .word

/-- Settles O28. -/
theorem storeRules : Obligations.StoreRules := by
  unfold Obligations.StoreRules
  exact ⟨stwRule, storeRule_of .half, storeRule_of .byte⟩

/-! ### A load after a store -/

/-- `n` of the bytes of a word in address order, from byte `j` on. -/
def wordPart (v : Word) (j n : Nat) : List Byte := ((splitBig v 4).drop j).take n

theorem wordPart_length (v : Word) {j n : Nat} (h : j + n ≤ 4) : (wordPart v j n).length = n := by
  rw [wordPart, List.length_take, List.length_drop, splitBig_length]
  omega

theorem wordPart_getElem? (v : Word) {j n k : Nat} (h : j + n ≤ 4) (hk : k < n) :
    (wordPart v j n)[k]? = some (v.extractLsb' (8 * (4 - 1 - (j + k))) 8) := by
  rw [wordPart, List.getElem?_take_of_lt hk, List.getElem?_drop, splitBig_getElem? _ _ _ (by omega)]

theorem wordPart_word (v : Word) : BitVec.ofNat 32 (bigEndian (wordPart v 0 4)) = v := by
  have hbytes : bigEndian [v.extractLsb' 24 8, v.extractLsb' 16 8, v.extractLsb' 8 8, v.extractLsb' 0 8] = v.toNat := by
    simp [bigEndian, Nat.shiftRight_eq_div_pow]
    omega
  calc
    BitVec.ofNat 32 (bigEndian (wordPart v 0 4)) = BitVec.ofNat 32 v.toNat := congrArg _ hbytes
    _ = v := by rw [BitVec.ofNat_toNat, BitVec.setWidth_eq]

theorem wordPart_half (v : Word) {k : Nat} (hk : k < 2) :
    BitVec.ofNat 32 (bigEndian (wordPart v (2 * k) 2)) = (v.extractLsb' (16 * (1 - k)) 16).setWidth 32 := by
  have hbytes (n : Nat) : bigEndian [v.extractLsb' (n + 8) 8, v.extractLsb' n 8] = (v.extractLsb' n 16).toNat := by
    simp only [bigEndian, List.foldl_cons, List.foldl_nil, BitVec.extractLsb'_toNat, Nat.shiftRight_add]
    omega
  have hpart : wordPart v (2 * k) 2 = [v.extractLsb' (16 * (1 - k) + 8) 8, v.extractLsb' (16 * (1 - k)) 8] := by
    interval_cases k <;> rfl
  rw [hpart, hbytes, BitVec.ofNat_toNat]

theorem wordPart_byte (v : Word) {k : Nat} (hk : k < 4) :
    BitVec.ofNat 32 (bigEndian (wordPart v k 1)) = (v.extractLsb' (8 * (3 - k)) 8).setWidth 32 := by
  have hpart : wordPart v k 1 = [v.extractLsb' (8 * (3 - k)) 8] := by interval_cases k <;> rfl
  rw [hpart, bigEndian_cons, ← BitVec.ofNat_toNat]
  simp [bigEndian]

/-- The four bytes from an address on are those of a word. -/
def HoldsWord (s : State) (a : Nat) (v : Word) : Prop :=
  ∀ k, k < 4 → s.byteAt (a + k) = some (v.extractLsb' (8 * (4 - 1 - k)) 8)

section Part

variable {s : State} {s1 : GR} {off v : Word}

/-- An offset inside an aligned word does not wrap. -/
theorem addr_add_toNat {j : Nat} (ha : (addr s s1 off).toNat % 4 = 0) (hj : j < 4) :
    (addr s s1 (off + BitVec.ofNat 32 j)).toNat = (addr s s1 off).toNat + j := by
  have hlt := (addr s s1 off).isLt
  rw [addr, ← BitVec.add_assoc, ← addr, BitVec.toNat_add, BitVec.toNat_ofNat]
  omega

/-- An aligned part of an aligned word loads as the number of its bytes. -/
theorem exec_load_part {op : BitVec 7} {mk : GR → Word → GR → Instr} {n j : Nat} {f : Nat → Word}
    (hrule : LoadRule op mk n f) (h : Readable s [s1] []) (ha : (addr s s1 off).toNat % 4 = 0)
    (hin : Inside s (addr s s1 off) 4) (hv : HoldsWord s (addr s s1 off).toNat v) (hn : 0 < n) (hfit : j + n ≤ 4)
    (h4 : n ∣ 4) (hj : n ∣ j) (t : GR) :
    exec (mk t (off + BitVec.ofNat 32 j) s1) s = .next (putGr s t (f (bigEndian (wordPart v j n))) (s.pc + 1)) := by
  have haddr := addr_add_toNat (j := j) ha (by omega)
  refine hrule.1 t _ s1 s _ h ?_ ?_ (wordPart_length v hfit) fun k hk => ?_
  · rw [haddr]
    exact Nat.mod_eq_zero_of_dvd (dvd_add (h4.trans (Nat.dvd_of_mod_eq_zero ha)) hj)
  · rw [Inside] at hin ⊢
    omega
  · rw [haddr, Nat.add_assoc, hv (j + k) (by omega), wordPart_getElem? v hfit hk]

end Part

/-- Settles O30: the bytes that the store rule gives are those the load rules take. -/
theorem loadReturnsTheLatestStoreBigEndian : Obligations.LoadReturnsTheLatestStoreBigEndian := by
  unfold Obligations.LoadReturnsTheLatestStoreBigEndian
  intro off s1 s2 s h ha hin
  obtain ⟨m, hexec, -, hbytes⟩ := stwRule.1 off s1 s2 s h ha hin
  have hready : Readable { s with dmem := m, pc := s.pc + 1 } [s1] [] :=
    ⟨fun i hi => h.1 i (List.mem_cons.2 (.inl (List.mem_singleton.1 hi))), nofun⟩
  refine ⟨_, hexec, fun t => ?_, fun t k hk => ?_, fun t k hk => ?_⟩
  · have hword := exec_load_part (j := 0) ldwRule hready ha hin hbytes (by decide) (by decide) (by decide) (by decide) t
    rwa [BitVec.add_zero, wordPart_word] at hword
  · rw [← wordPart_half _ hk]
    exact exec_load_part ldhuRule hready ha hin hbytes (by decide) (by omega) (by decide) (Nat.dvd_mul_right 2 k) t
  · rw [← wordPart_byte _ hk]
    exact exec_load_part ldbuRule hready ha hin hbytes (by decide) (by omega) (by decide) (Nat.one_dvd k) t

end Sys2Proof.Machine
end

section
/-! PROOFS, what an operation changes and what it sees (spec/30_encoding.md Table 30-C, spec/00_scope.md R10).

For the second, two states run side by side. `Agrees` says that they are the same where the operation may look, `Alike`
that the outcomes are the same where it may write; each shared operation of Table 30-C takes the one to the other. -/

namespace Sys2Proof.Machine

open Sys2Proof.Rules

/-- Settles O49: an operation goes through, and then changes what `Completes` leaves open, or raises a fault. -/
theorem operationsChangeOnlyWhatTheirRowWrites : Obligations.OperationsChangeOnlyWhatTheirRowWrites := by
  unfold Obligations.OperationsChangeOnlyWhatTheirRowWrites
  intro i s t h
  rcases exec_cases h with hc | ⟨c, rfl, -⟩
  · exact ⟨hc.gr, fun k hk => exec_keepsBr (mt (writesBr_iff i k).1 hk) s t h, fun hs => exec_keepsDmem hs s t h,
      fun hi => .inr (hc.pc (control_eq_isControl i ▸ hi)), hc.halted, hc.imem, hc.dmemBytes, inFlight_eq _ _,
      fun hi => hc.draws.resolve_right (by simp [hi]), hc.draws.imp_right And.right⟩
  · simp

/-! ### Two states that are the same where an operation may look -/

/-- The same outside the registers and instruction memory. -/
structure SameOutside (s s' : State) : Prop where
  fault : s.fault = s'.fault
  pc : s.pc = s'.pc
  dmem : s.dmem = s'.dmem
  dmemBytes : s.dmemBytes = s'.dmemBytes
  halted : s.halted = s'.halted
  draws : s.draws = s'.draws

/-- The same there and in GR `grs` and BR `brs`. -/
structure Agrees (grs : List GR) (brs : List BR) (s s' : State) : Prop where
  outside : SameOutside s s'
  gr : ∀ k ∈ grs, s.gr[k] = s'.gr[k] ∧ s.grWritten[k] = s'.grWritten[k]
  br : ∀ k ∈ brs, s.br[k] = s'.br[k] ∧ s.brWritten[k] = s'.brWritten[k]

/-- The same values in GR `grs` and BR `brs`; `$r0.0` is no target. -/
def SameValues (grs : List GR) (brs : List BR) (u u' : State) : Prop :=
  (∀ k ∈ grs, k ≠ 0 → u.gr[k] = u'.gr[k]) ∧ ∀ k ∈ brs, u.br[k] = u'.br[k]

/-- Two outcomes are next states that are the same outside the registers and, when there is no fault, in the registers
written, GR `grs` and BR `brs`. -/
def Alike (grs : List GR) (brs : List BR) (r r' : Result) : Prop :=
  ∃ u u', r = .next u ∧ r' = .next u' ∧ SameOutside u u' ∧ (u.fault = none → SameValues grs brs u u')

/-- An operation that sees no register but GR `grs` and BR `brs`, its writes being GR `gws` and BR `bws`. -/
def SeesOnly (grs : List GR) (brs : List BR) (gws : List GR) (bws : List BR) (op : State → Result) : Prop :=
  ∀ s s', Agrees grs brs s s' → Alike gws bws (op s) (op s')

/-! ### What they read -/

section Reads

variable {grs : List GR} {brs : List BR} {s s' : State}

theorem Agrees.readGr (h : Agrees grs brs s s') {i : GR} (hi : i ∈ grs) : s.readGr i = s'.readGr i := by
  simp only [readGr_eq_gval, gval, (h.gr i hi).1]

theorem Agrees.src2 {s1 : GR} {a : Src2} (h : Agrees (s1 :: srcReads a) brs s s') : s.src2 a = s'.src2 a := by
  cases a with
  | reg s2 => exact h.readGr (List.mem_cons_of_mem _ List.mem_cons_self)
  | imm v => rfl

theorem Agrees.readBr (h : Agrees grs brs s s') {i : BR} (hi : i ∈ brs) : s.readBr i = s'.readBr i := (h.br i hi).1

theorem Agrees.ea (h : Agrees grs brs s s') {i : GR} (hi : i ∈ grs) (off : Word) : s.ea i off = s'.ea i off :=
  congrArg (· + off) (h.readGr hi)

theorem Agrees.indirectTarget (h : Agrees grs brs s s') (hlr : Params.lrIndex ∈ grs) :
    s.indirectTarget = s'.indirectTarget :=
  congrArg (fun v : Word => (v.toNat : Int)) (h.readGr hlr)

theorem SameOutside.relTarget (h : SameOutside s s') (off : Int) : s.relTarget off = s'.relTarget off := by
  rw [relTarget_eq, relTarget_eq, h.pc]

theorem SameOutside.linkValue (h : SameOutside s s') : s.linkValue = s'.linkValue := by
  rw [linkValue_eq, linkValue_eq, h.pc]

theorem SameOutside.accessFault (h : SameOutside s s') (a : Word) (w : Width) :
    s.accessFault a w = s'.accessFault a w := by
  rw [State.accessFault, State.accessFault, State.inDmem, State.inDmem, h.dmemBytes]

theorem SameOutside.memRead (h : SameOutside s s') (a : Word) (w : Width) : s.memRead a w = s'.memRead a w := by
  simp only [State.memRead, h.accessFault, h.dmem]

theorem lowestUnwrittenGr_congr (h : ∀ k ∈ grs, s.grWritten[k] = s'.grWritten[k]) :
    s.lowestUnwrittenGr grs = s'.lowestUnwrittenGr grs := by
  induction grs with
  | nil => rfl
  | cons i rest ih =>
    obtain ⟨hi, hrest⟩ := List.forall_mem_cons.1 h
    rw [State.lowestUnwrittenGr, State.lowestUnwrittenGr, State.grReady, State.grReady, hi, ih hrest]

theorem lowestUnwrittenBr_congr (h : ∀ k ∈ brs, s.brWritten[k] = s'.brWritten[k]) :
    s.lowestUnwrittenBr brs = s'.lowestUnwrittenBr brs := by
  induction brs with
  | nil => rfl
  | cons i rest ih =>
    obtain ⟨hi, hrest⟩ := List.forall_mem_cons.1 h
    rw [State.lowestUnwrittenBr, State.lowestUnwrittenBr, State.brReady, State.brReady, hi, ih hrest]

theorem Agrees.unwritten (h : Agrees grs brs s s') : s.unwritten grs brs = s'.unwritten grs brs := by
  simp only [State.unwritten, lowestUnwrittenGr_congr fun k hk => (h.gr k hk).2,
    lowestUnwrittenBr_congr fun k hk => (h.br k hk).2]

end Reads

/-! ### What they write -/

section Writes

variable {s s' : State} (h : SameOutside s s')

include h

theorem SameOutside.raise (c : Cause) : SameOutside (s.raise c) (s'.raise c) := { h with fault := rfl }

theorem SameOutside.jump (p : Pc) : SameOutside (s.jump p) (s'.jump p) := { h with pc := rfl }

theorem SameOutside.advance : SameOutside s.advance s'.advance := { h with pc := congrArg (· + 1) h.pc }

theorem SameOutside.writeBr (b : BR) (c : Bool) : SameOutside (s.writeBr b c) (s'.writeBr b c) := { h with }

theorem SameOutside.writeGr (t : GR) (v : Word) : SameOutside (s.writeGr t v) (s'.writeGr t v) := by
  constructor <;> simp [h.fault, h.pc, h.dmem, h.dmemBytes, h.halted, h.draws]

theorem alike_raise (c : Cause) (gws : List GR) (bws : List BR) :
    Alike gws bws (.next (s.raise c)) (.next (s'.raise c)) :=
  ⟨_, _, rfl, rfl, h.raise c, nofun⟩

/-- No register is written. -/
theorem alike_of_no_writes : Alike [] [] (.next s) (.next s') := ⟨_, _, rfl, rfl, h, fun _ => ⟨nofun, nofun⟩⟩

omit h in
theorem sameValues_writeGr (s s' : State) (t : GR) (v : Word) :
    SameValues [t] [] (s.writeGr t v) (s'.writeGr t v) := by
  refine ⟨fun k hk h0 => ?_, nofun⟩
  cases List.mem_singleton.1 hk
  rw [writeGr_getElem, writeGr_getElem, if_pos ⟨rfl, h0⟩, if_pos ⟨rfl, h0⟩]

omit h in
theorem sameValues_writeBr (s s' : State) (b : BR) (c : Bool) :
    SameValues [] [b] (s.writeBr b c) (s'.writeBr b c) := by
  refine ⟨nofun, fun k hk => ?_⟩
  cases List.mem_singleton.1 hk
  rw [writeBr_getElem, writeBr_getElem, if_pos rfl, if_pos rfl]

theorem alike_writeGr (t : GR) (v : Word) :
    Alike [t] [] (.next (s.writeGr t v).advance) (.next (s'.writeGr t v).advance) :=
  ⟨_, _, rfl, rfl, (h.writeGr t v).advance, fun _ => sameValues_writeGr s s' t v⟩

theorem alike_writeGr_jump (t : GR) (v : Word) (p : Pc) :
    Alike [t] [] (.next ((s.writeGr t v).jump p)) (.next ((s'.writeGr t v).jump p)) :=
  ⟨_, _, rfl, rfl, (h.writeGr t v).jump p, fun _ => sameValues_writeGr s s' t v⟩

theorem alike_drawTo (t : GR) : Alike [t] [] (.next (s.drawTo t).advance) (.next (s'.drawTo t).advance) := by
  have hw := h.writeGr t (Config.draw32 s.draws t)
  refine ⟨_, _, rfl, rfl, ?_, fun _ => ?_⟩
  · rw [State.drawTo, State.drawTo, ← h.draws]
    exact SameOutside.advance { hw with draws := rfl }
  · rw [State.drawTo, State.drawTo, ← h.draws]
    exact sameValues_writeGr s s' t (Config.draw32 s.draws t)

theorem alike_writeBr (b : BR) (c : Bool) :
    Alike [] [b] (.next (s.writeBr b c).advance) (.next (s'.writeBr b c).advance) :=
  ⟨_, _, rfl, rfl, (h.writeBr b c).advance, fun _ => sameValues_writeBr s s' b c⟩

theorem alike_writeGr_writeBr (t : GR) (v : Word) (b : BR) (c : Bool) :
    Alike [t] [b] (.next ((s.writeGr t v).writeBr b c).advance) (.next ((s'.writeGr t v).writeBr b c).advance) :=
  ⟨_, _, rfl, rfl, ((h.writeGr t v).writeBr b c).advance,
    fun _ => ⟨(sameValues_writeGr s s' t v).1, (sameValues_writeBr _ _ b c).2⟩⟩

theorem alike_writeTruth (d : Target) (c : Bool) : Alike (targetGrWrites d) (targetBrWrites d)
    (.next (s.writeTruth d c).advance) (.next (s'.writeTruth d c).advance) := by
  cases d with
  | gr t => exact alike_writeGr h t (truthWord c)
  | br b => exact alike_writeBr h b c

end Writes

/-! ### The shared operations -/

/-- Reading the registers that agree sees only them when what follows does. -/
theorem reading_seesOnly {grs : List GR} {brs : List BR} {gws : List GR} {bws : List BR} {f : State → Result}
    (hf : ∀ s s', Agrees grs brs s s' → Alike gws bws (f s) (f s')) :
    SeesOnly grs brs gws bws fun s => reading grs brs s (f s) := by
  intro s s' h
  simp only [reading, ← h.unwritten]
  cases s.unwritten grs brs with
  | none => exact hf s s' h
  | some p => exact alike_raise h.outside _ _ _

theorem binaryOp_seesOnly {t s1 : GR} {a : Src2} {f : Word → Word → Word} :
    SeesOnly (s1 :: srcReads a) [] [t] [] (binaryOp t s1 a f) :=
  reading_seesOnly fun s s' h => by
    rw [h.readGr List.mem_cons_self, h.src2]
    exact alike_writeGr h.outside ..

theorem shiftOp_seesOnly {op : Params.Shift} {t s1 : GR} {a : Src2} {f : Word → Nat → Word} :
    SeesOnly (s1 :: srcReads a) [] [t] [] (shiftOp op t s1 a f) :=
  reading_seesOnly fun s s' h => by
    rw [h.readGr List.mem_cons_self, h.src2, shiftOut_eq, shiftOut_eq]
    split
    · exact alike_writeGr h.outside ..
    · exact alike_drawTo h.outside t

theorem unaryOp_seesOnly {t s1 : GR} {f : Word → Word} : SeesOnly [s1] [] [t] [] (unaryOp t s1 f) :=
  reading_seesOnly fun s s' h => by
    rw [h.readGr List.mem_cons_self]
    exact alike_writeGr h.outside ..

theorem selectOp_seesOnly {t : GR} {b1 : BR} {s1 : GR} {a : Src2} {f : Bool → Word → Word → Word} :
    SeesOnly (s1 :: srcReads a) [b1] [t] [] (selectOp t b1 s1 a f) :=
  reading_seesOnly fun s s' h => by
    rw [h.readBr List.mem_cons_self, h.readGr List.mem_cons_self, h.src2]
    exact alike_writeGr h.outside ..

theorem carryOp_seesOnly {t : GR} {b b1 : BR} {s1 s2 : GR} {f : Bool → Word → Word → Word}
    {c : Bool → Word → Word → Bool} : SeesOnly [s1, s2] [b1] [t] [b] (carryOp t b b1 s1 s2 f c) :=
  reading_seesOnly fun s s' h => by
    rw [h.readBr List.mem_cons_self, h.readGr (i := s1) (by simp), h.readGr (i := s2) (by simp)]
    exact alike_writeGr_writeBr h.outside ..

theorem truthOp_seesOnly {d : Target} {s1 : GR} {a : Src2} {c : Word → Word → Bool} :
    SeesOnly (s1 :: srcReads a) [] (targetGrWrites d) (targetBrWrites d) (truthOp d s1 a c) :=
  reading_seesOnly fun s s' h => by
    rw [h.readGr List.mem_cons_self, h.src2]
    exact alike_writeTruth h.outside ..

theorem execMtb_seesOnly {b : BR} {s1 : GR} : SeesOnly [s1] [] [] [b] (execMtb b s1) :=
  reading_seesOnly fun s s' h => by
    rw [h.readGr List.mem_cons_self]
    exact alike_writeBr h.outside ..

theorem loadOp_seesOnly {w : Width} {ext : Word → Word} {t : GR} {off : Word} {s1 : GR} :
    SeesOnly [s1] [] [t] [] (loadOp w ext t off s1) :=
  reading_seesOnly fun s s' h => by
    rw [h.ea List.mem_cons_self, h.outside.memRead]
    cases s'.memRead (s'.ea s1 off) w with
    | error c => exact alike_raise h.outside ..
    | ok v => exact alike_writeGr h.outside ..

theorem storeOp_seesOnly {w : Width} {off : Word} {s1 s2 : GR} : SeesOnly [s1, s2] [] [] [] (storeOp w off s1 s2) :=
  reading_seesOnly fun s s' h => by
    rw [h.ea (i := s1) (by simp), h.readGr (i := s2) (by simp), State.memWrite, State.memWrite, h.outside.accessFault]
    cases s'.accessFault (s'.ea s1 off) w with
    | some c => exact alike_raise h.outside ..
    | none => exact alike_of_no_writes (SameOutside.advance { h.outside with dmem := by rw [h.outside.dmem] })

theorem branchOp_seesOnly {b : BR} {off : Int} {taken : Bool → Bool} : SeesOnly [] [b] [] [] (branchOp b off taken) :=
  reading_seesOnly fun s s' h => by
    rw [h.readBr List.mem_cons_self, h.outside.relTarget]
    split
    · exact alike_of_no_writes (h.outside.jump _)
    · exact alike_of_no_writes h.outside.advance

theorem execGoto_seesOnly {off : Int} : SeesOnly [] [] [] [] (execGoto off) := by
  intro s s' h
  rw [execGoto, execGoto, h.outside.relTarget]
  exact alike_of_no_writes (h.outside.jump _)

theorem execIgoto_seesOnly : SeesOnly [Params.lrIndex] [] [] [] execIgoto :=
  reading_seesOnly fun s s' h => by
    rw [h.indirectTarget List.mem_cons_self]
    exact alike_of_no_writes (h.outside.jump _)

theorem execCall_seesOnly {off : Int} : SeesOnly [] [] [Params.lrIndex] [] (execCall off) := by
  intro s s' h
  rw [execCall, execCall, h.outside.linkValue, h.outside.relTarget]
  exact alike_writeGr_jump h.outside ..

theorem execIcall_seesOnly : SeesOnly [Params.lrIndex] [] [Params.lrIndex] [] execIcall :=
  reading_seesOnly fun s s' h => by
    rw [h.indirectTarget List.mem_cons_self, h.outside.linkValue]
    exact alike_writeGr_jump h.outside ..

theorem execRet_seesOnly {t : GR} {frame : Int} : SeesOnly [t, Params.lrIndex] [] [t] [] (execRet t frame) :=
  reading_seesOnly fun s s' h => by
    rw [h.indirectTarget (by simp), h.readGr List.mem_cons_self]
    exact alike_writeGr_jump h.outside ..

theorem raise_seesOnly (c : Cause) : SeesOnly [] [] [] [] fun s => .next (s.raise c) :=
  fun _ _ h => alike_raise h.outside ..

/-- Every operation sees only what its row of Table 30-C reads. -/
theorem exec_seesOnly (i : Instr) :
    SeesOnly (access i).grReads (access i).brReads (access i).grWrites (access i).brWrites (exec i) := by
  unfold exec
  cases i with
  | mpyll | mpyllu | mpylh | mpylhu | mpyhh | mpyhhu | mpyl | mpylu | mpyh | mpyhu | mpyhs
  | add | and | andc | max | maxu | min | minu | or | orc | sh1add | sh2add | sh3add | sh4add | sub | xor =>
    exact binaryOp_seesOnly
  | shl | shr | shru => exact shiftOp_seesOnly
  | sxtb | sxth | zxtb | zxth | mov => exact unaryOp_seesOnly
  | slct | slctf => exact selectOp_seesOnly
  | divs | addcg => exact carryOp_seesOnly
  | cmpeq | cmpge | cmpgeu | cmpgt | cmpgtu | cmple | cmpleu | cmplt | cmpltu | cmpne
  | nandl | norl | orl | andl => exact truthOp_seesOnly
  | mtb => exact execMtb_seesOnly
  | ldw | ldh | ldhu | ldb | ldbu => exact loadOp_seesOnly
  | stw | sth | stb => exact storeOp_seesOnly
  | br | brf => exact branchOp_seesOnly
  | pft => exact reading_seesOnly fun s s' h => alike_of_no_writes h.outside.advance
  | goto => exact execGoto_seesOnly
  | igoto => exact execIgoto_seesOnly
  | call => exact execCall_seesOnly
  | icall => exact execIcall_seesOnly
  | ret => exact execRet_seesOnly
  | nop | xnop => exact fun s s' h => alike_of_no_writes h.outside.advance
  | stop => exact fun s s' h => alike_of_no_writes { h.outside.advance with halted := rfl }
  -- What is left only raises a fault: RFI, SEND, RECV, SYL_FOLLOW and the reserved codes.
  | _ => exact raise_seesOnly _

/-- A next state without a fault is one where the operation has gone through. -/
theorem completes_of_next {i : Instr} {s u : State} (h : exec i s = .next u) (hu : u.fault = none) :
    Completes i s u := by
  cases outcome_eq h
  exact completes_of_fault_eq_none hu

/-- Settles O52. -/
theorem operationsSeeOnlyWhatTheirRowReads : Obligations.OperationsSeeOnlyWhatTheirRowReads := by
  unfold Obligations.OperationsSeeOnlyWhatTheirRowReads
  intro i s s' u hf hf' hpc hdmem hbytes hdraws hhalted hgr hbr hexec
  have hout : SameOutside s s' := ⟨hf.trans hf'.symm, hpc, hdmem, hbytes, hhalted, hdraws⟩
  obtain ⟨v, u', hv, hexec', hsame, hvalues⟩ := exec_seesOnly i s s' ⟨hout, hgr, hbr⟩
  cases hv.symm.trans hexec
  refine ⟨u', hexec', hsame.fault, hsame.pc, hsame.dmem, hsame.halted, hsame.draws, fun hnone => ?_⟩
  have hc := completes_of_next hexec hnone
  have hc' := completes_of_next hexec' (hsame.fault ▸ hnone)
  obtain ⟨hg, hb⟩ := hvalues hnone
  exact ⟨fun k hk h0 => ⟨hg k hk h0, hc.grWritten k hk h0, hc'.grWritten k hk h0⟩,
    fun k hk => ⟨hb k hk, hc.brWritten k hk, hc'.brWritten k hk⟩⟩

end Sys2Proof.Machine
end
